-- ==== Sys2Proof/Word.lean ====
section
/-!
DEFINITION. The two word types of the block (00_scope.md R6, R7): the byte of a frame and the 16-bit value of a field,
a cell of a word table, the CRC register.
-/
namespace Sys2Proof

/-- One byte of a frame, a payload or a buffer (00_scope.md R7). -/
abbrev Byte := BitVec 8

/-- A 16-bit value: a wire address, a count, a HOLD or INPUT cell, the CRC (00_scope.md R6, R8; 10_state.md R17). -/
abbrev Word := BitVec 16

end Sys2Proof
end

