-- ==== Sys2Proof/Config.lean ====
section
/-!
DEFINITION. The parameters of the block (00_scope.md R5), fixed from reset for its life (10_state.md R16), and the
parameter set State.reset uses. The constants of R5 stand where they are used: CRC_POLY and CRC_INIT in
Machine/Crc.lean, SERIAL_MIN_FRAME and SOCK_RX_MAX in Machine/Codec.lean.
-/
namespace Sys2Proof

/-- `TRANSPORT` (00_scope.md R5): it alone selects the envelope (30_encoding.md R64). -/
inductive Transport where
  /-- RTU-style frames with a CRC-16 trailer. -/
  | serial
  /-- The 7-byte header and no CRC. -/
  | socket
  deriving DecidableEq, Repr

/-- The four table kinds of 10_state.md R17. -/
inductive TableKind where
  | coil
  | disc
  | hold
  | input
  deriving DecidableEq, Repr

/-- What one cell of a table holds: one bit for COIL and DISC, 16 bits for HOLD and INPUT (10_state.md R17). -/
@[reducible] def TableKind.Cell : TableKind → Type
  | .coil => Bool
  | .disc => Bool
  | .hold => Word
  | .input => Word

/-- `BASE_k` and `LEN_k`: unbounded naturals (00_scope.md R5, D19). -/
structure TableShape where
  base : Nat
  len : Nat
  deriving DecidableEq, Repr

/-- The configuration row of 10_state.md R15: `SERVER_ID`, `TRANSPORT`, and for each kind k `BASE_k`, `LEN_k` and
`DEFAULT_k`. No function code reads it as data or writes it (R16). -/
structure Config where
  serverId : Byte
  transport : Transport
  coil : TableShape
  disc : TableShape
  hold : TableShape
  input : TableShape
  coilDefault : Bool
  discDefault : Bool
  holdDefault : Word
  inputDefault : Word
  deriving DecidableEq, Repr

/-- `BASE_k` and `LEN_k` of table k. -/
def Config.shape (c : Config) : TableKind → TableShape
  | .coil => c.coil
  | .disc => c.disc
  | .hold => c.hold
  | .input => c.input

/-- All that the host supplies before the first poll (70_reset_and_hazards.md R154): the configuration and `INIT_k`. -/
structure Params where
  config : Config
  initCoil : List Bool
  initDisc : List Bool
  initHold : List Word
  initInput : List Word
  deriving DecidableEq, Repr

/-- DESIGN CHOICE (log 3): the standard configuration SC of 95_test_vectors.md, with `TRANSPORT = SERIAL`. The spec gives
the block no default parameters (SC is "a test configuration"); State.reset needs one instance. SC names no `DEFAULT_k`:
0 in all four kinds is DESIGN CHOICE too (log 3), seen in no cell here, since SC's contents cover every cell. Statements
range over every parameter set. -/
def Params.standard : Params where
  config :=
    { serverId := 0x11
      transport := .serial
      coil := { base := 100, len := 10 }
      disc := { base := 0, len := 16 }
      hold := { base := 200, len := 100 }
      input := { base := 0, len := 8 }
      coilDefault := false
      discDefault := false
      holdDefault := 0
      inputDefault := 0 }
  initCoil := [true, false, true, true, false, false, true, true, true, false]
  initDisc :=
    [true, true, false, false, true, false, true, false, false, true, false, true, true, true, true, false]
  initHold := List.replicate 100 42
  initInput := [0x1000, 0x1001, 0x1002, 0x1003, 0x1004, 0x1005, 0x1006, 0x1007]

end Sys2Proof
end

