-- ==== Sys2Proof/Machine/Operands.lean ====
section
/-!
DEFINITION. Field assembly (00_scope.md R7, R8), operand forms (30_encoding.md R65 to R67) and the bit and word packer
(42_frame_codec.md R109 to R112).
-/
namespace Sys2Proof.Machine

/-- `b[i..j)` of 00_scope.md R7: indices i ≤ n < j, those past the end left out. -/
def slice (b : List Byte) (i j : Nat) : List Byte := (b.drop i).take (j - i)

/-- `ceil_div(a, b)` of 00_scope.md R6, for b > 0. -/
def ceilDiv (a b : Nat) : Nat := (a + b - 1) / b

/-- The 16-bit value whose bits 15:8 are `hi` and bits 7:0 are `lo`. -/
def wordOf (hi lo : Byte) : Word := (hi.setWidth 16 <<< 8) ||| lo.setWidth 16

/-- `BE16(b, i)` of 00_scope.md R8. It is "defined only when i+1 < len(b)"; every use stands behind a length check, and
an absent byte is read as 0 in this text only (DESIGN CHOICE, log 14). -/
def be16 (b : List Byte) (i : Nat) : Word := wordOf (b.getD i 0) (b.getD (i + 1) 0)

/-- The byte `v[15:8]`. -/
def hiByte (v : Word) : Byte := (v >>> 8).setWidth 8

/-- The byte `v[7:0]`. -/
def loByte (v : Word) : Byte := v.setWidth 8

/-- `ToBE16(v)` of 00_scope.md R8 (20_memory.md R35). -/
def toBE16 (v : Word) : List Byte := [hiByte v, loByte v]

/-- `ToLE16(v)` of 00_scope.md R8 (20_memory.md R36). -/
def toLE16 (v : Word) : List Byte := [loByte v, hiByte v]

/-- The value of a WRITE_SINGLE_COIL request (30_encoding.md R66): 0xFF00 is 1, 0x0000 is 0, every other is illegal. -/
def coilValue (v : Word) : Option Bool :=
  if v = 0xFF00 then some true else if v = 0x0000 then some false else none

/-- One byte of a packed bit string: the first of at most eight bits in bit 0, the missing high bits 0
(20_memory.md R37, R38). -/
def packByte (bits : List Bool) : Byte :=
  bits.foldr (fun v acc => (acc <<< 1) ||| (if v then 1 else 0)) 0

/-- `PackBits(vs)` of 42_frame_codec.md R109: `ceil_div(n, 8)` bytes, byte i holding vs[8i..8i+8). -/
def packBits (vs : List Bool) : List Byte :=
  (List.range (ceilDiv vs.length 8)).map fun i => packByte ((vs.drop (8 * i)).take 8)

/-- Bit j of a packed bit string: bit j mod 8 of byte j / 8 (42_frame_codec.md R110). -/
def bitAt (d : List Byte) (j : Nat) : Bool := (d.getD (j / 8) 0).getLsbD (j % 8)

/-- `UnpackBits(d, n)` of 42_frame_codec.md R110; `none` is the failure. -/
def unpackBits (d : List Byte) (n : Nat) : Option (List Bool) :=
  if 8 * d.length < n then none else some ((List.range n).map (bitAt d))

/-- `PackWords(vs)` of 42_frame_codec.md R111. -/
def packWords (vs : List Word) : List Byte := vs.flatMap toBE16

/-- `UnpackWords(d, n)` of 42_frame_codec.md R112; `none` is the failure. -/
def unpackWords (d : List Byte) (n : Nat) : Option (List Word) :=
  if d.length < 2 * n then none else some ((List.range n).map fun j => be16 d (2 * j))

/-- The cells of a table at reset (10_state.md R20): `INIT_k[i]` where supplied, else `DEFAULT_k`. Cells of `INIT_k` past
`LEN_k`, which 00_scope.md R5 rules out, are left out (DESIGN CHOICE, log 12). -/
def initialCells {α : Type} (len : Nat) (dflt : α) (init : List α) : List α :=
  (init ++ List.replicate (len - init.length) dflt).take len

end Sys2Proof.Machine
end

