-- ==== Sys2Proof/Syntax.lean ====
section
/-!
DEFINITION. The block's instructions: one constructor for each row of spec/opcode_table.json (30_encoding.md R62, R63).
An instruction is a decoded PDU: its function code is the constructor, its operands are the fields of the payload
layout (R56 to R58).
-/
namespace Sys2Proof

/-- The eight function codes and the default row. Operands as 43_function_codes.md R119 decodes them: `addr` is ADDR;
`qty` is QTY as a count; `value` is QTY as a value; `bc` and `data` are BC and DATA (30_encoding.md R58). -/
inductive Instr where
  /-- FC 0x01, 43_function_codes.md R122. -/
  | readCoils (addr qty : Word)
  /-- FC 0x02, R123. -/
  | readDiscreteInputs (addr qty : Word)
  /-- FC 0x03, R124. -/
  | readHoldingRegisters (addr qty : Word)
  /-- FC 0x04, R125. -/
  | readInputRegisters (addr qty : Word)
  /-- FC 0x05, R126. -/
  | writeSingleCoil (addr value : Word)
  /-- FC 0x06, R127. -/
  | writeSingleRegister (addr value : Word)
  /-- FC 0x0F, R128. -/
  | writeMultipleCoils (addr qty : Word) (bc : Byte) (data : List Byte)
  /-- FC 0x10, R129. -/
  | writeMultipleRegisters (addr qty : Word) (bc : Byte) (data : List Byte)
  /-- Every other function code, R130; the payload is not read. -/
  | unsupported (fc : Byte)
  deriving DecidableEq, Repr

end Sys2Proof
end

