-- ==== Sys2Proof/WellFormed.lean ====
section
/-!
DEFINITION. Which terms of Instr some PDU spells (30_encoding.md R56 to R58, R62, R63).
-/
namespace Sys2Proof

/-- The function codes of 30_encoding.md R62. -/
def supportedCodes : List Byte := [0x01, 0x02, 0x03, 0x04, 0x05, 0x06, 0x0F, 0x10]

/-- Whether a function code is one of the eight (R62, R63). -/
def isSupported (fc : Byte) : Bool := supportedCodes.contains fc

/-- The instruction is one the encoding admits: DATA is at most BC bytes long, since it is PAY[5..5+BC) cut at the end
of the payload (R58), and the default row carries a code outside the eight (R63). Every other operand is free: an
illegal coil value (R66) or a count of 0 (R75) is still an instruction, with a meaning of its own. -/
def Instr.wellFormed : Instr → Bool
  | .readCoils _ _ => true
  | .readDiscreteInputs _ _ => true
  | .readHoldingRegisters _ _ => true
  | .readInputRegisters _ _ => true
  | .writeSingleCoil _ _ => true
  | .writeSingleRegister _ _ => true
  | .writeMultipleCoils _ _ bc data => decide (data.length ≤ bc.toNat)
  | .writeMultipleRegisters _ _ bc data => decide (data.length ≤ bc.toNat)
  | .unsupported fc => !isSupported fc

end Sys2Proof
end

