-- ==== Sys2Proof/Decode.lean ====
section
/-!
DEFINITION. From the bytes of a PDU to an instruction (30_encoding.md R55 to R58, R62, R63; 43_function_codes.md R119),
total on any bytes, and back.
-/
namespace Sys2Proof

open Sys2Proof.Machine

/-- Why a byte sequence is no instruction. -/
inductive DecodeError where
  /-- The PDU is empty: there is no function code. No accepted frame has such a PDU (42_frame_codec.md R96, R100). -/
  | noFunctionCode
  /-- A supported function code with fewer than 4 payload bytes (42_frame_codec.md R115). -/
  | shortPayload
  deriving DecidableEq, Repr

/-- `BC` (30_encoding.md R58): `PAY[4]`, or 0 when the payload has no byte 4. -/
def byteCountOf (pay : List Byte) : Byte := pay.getD 4 0

/-- `DATA` (30_encoding.md R58): `PAY[5..5+BC)`, cut short at the end of the payload. -/
def writeDataOf (pay : List Byte) : List Byte := slice pay 5 (5 + (byteCountOf pay).toNat)

/-- The instruction a PDU spells: the function code first, an unsupported one without a look at the payload
(43_function_codes.md R130), then the payload's layout (30_encoding.md R56 to R58). Bytes past the layout are ignored
(R70). -/
def decode : List Byte → Except DecodeError Instr
  | [] => .error .noFunctionCode
  | fc :: pay =>
    if isSupported fc = false then .ok (.unsupported fc)
    else if pay.length < 4 then .error .shortPayload
    else
      let addr := be16 pay 0
      let qty := be16 pay 2
      if fc = 0x01 then .ok (.readCoils addr qty)
      else if fc = 0x02 then .ok (.readDiscreteInputs addr qty)
      else if fc = 0x03 then .ok (.readHoldingRegisters addr qty)
      else if fc = 0x04 then .ok (.readInputRegisters addr qty)
      else if fc = 0x05 then .ok (.writeSingleCoil addr qty)
      else if fc = 0x06 then .ok (.writeSingleRegister addr qty)
      else if fc = 0x0F then .ok (.writeMultipleCoils addr qty (byteCountOf pay) (writeDataOf pay))
      else .ok (.writeMultipleRegisters addr qty (byteCountOf pay) (writeDataOf pay))

/-- The function code of an instruction (30_encoding.md R62). -/
def functionCode : Instr → Byte
  | .readCoils _ _ => 0x01
  | .readDiscreteInputs _ _ => 0x02
  | .readHoldingRegisters _ _ => 0x03
  | .readInputRegisters _ _ => 0x04
  | .writeSingleCoil _ _ => 0x05
  | .writeSingleRegister _ _ => 0x06
  | .writeMultipleCoils _ _ _ _ => 0x0F
  | .writeMultipleRegisters _ _ _ _ => 0x10
  | .unsupported fc => fc

/-- The payload of an instruction's request, exactly its layout (30_encoding.md R56 to R58, R68). -/
def requestPayload : Instr → List Byte
  | .readCoils addr qty => toBE16 addr ++ toBE16 qty
  | .readDiscreteInputs addr qty => toBE16 addr ++ toBE16 qty
  | .readHoldingRegisters addr qty => toBE16 addr ++ toBE16 qty
  | .readInputRegisters addr qty => toBE16 addr ++ toBE16 qty
  | .writeSingleCoil addr value => toBE16 addr ++ toBE16 value
  | .writeSingleRegister addr value => toBE16 addr ++ toBE16 value
  | .writeMultipleCoils addr qty bc data => toBE16 addr ++ toBE16 qty ++ (bc :: data)
  | .writeMultipleRegisters addr qty bc data => toBE16 addr ++ toBE16 qty ++ (bc :: data)
  | .unsupported _ => []

/-- The PDU of an instruction: its function code and its payload (30_encoding.md R55). -/
def encode (i : Instr) : List Byte := functionCode i :: requestPayload i

/-- The bytes an opcode-table word of `nbits` bits stands for, the first byte in bits 7:0, with zero bytes after them up
to six: function code, address, count or value, byte count 0 (log 15). -/
def tableBytes (nbits w : Nat) : List Byte :=
  let bytes := (List.range (nbits / 8)).map fun j => BitVec.ofNat 8 (w >>> (8 * j))
  bytes ++ List.replicate (6 - bytes.length) 0

/-- What the decoder reads from an opcode-table word (the host's question). -/
def decodeTableWord (nbits w : Nat) : Option Instr :=
  match decode (tableBytes nbits w) with
  | .ok i => some i
  | .error _ => none

end Sys2Proof
end

