-- ==== Sys2Proof/Machine/State.lean ====
section
/-!
DEFINITION. The whole state of the block as plain data (10_state.md R15), the reasons a step can stop, and the state
after reset (70_reset_and_hazards.md R151).
-/
namespace Sys2Proof.Machine

/-- The states of the frame-processing state machine (10_state.md R25). -/
inductive Fsm where
  | idle
  | dispatch
  | read
  | writeSingle
  | writeMultiple
  | unsupported
  | respond
  deriving DecidableEq, Repr

/-- The `info` of a ContractFault: the operation, the table, the address and the count (60_exceptions.md R137;
40_register_table.md R73, R74). -/
inductive ContractInfo where
  | getOutOfRange (table : TableKind) (addr count : Nat)
  | setOutOfRange (table : TableKind) (addr count : Nat)
  deriving DecidableEq, Repr

/-- How one poll ended (00_scope.md R10). An exception response is an ordinary `emit`. -/
inductive PollOutcome where
  /-- `Emit(f)`: f is sent as the response frame. -/
  | emit (frame : List Byte)
  /-- `Drop()`: the frame is discarded, nothing is sent. -/
  | drop
  /-- `Retain()`: the bytes stay in RXBUF, nothing is sent. -/
  | retain
  /-- `raise ContractFault(info)`: FAULT is set, nothing is sent (60_exceptions.md R137). -/
  | contractFault (info : ContractInfo)
  deriving DecidableEq, Repr

/-- The cells of the four tables (10_state.md R17): each table is the ordered sequence of its cells (log 10). -/
structure Memory where
  coil : List Bool
  disc : List Bool
  hold : List Word
  input : List Word
  deriving DecidableEq, Repr

/-- The cells of table k. -/
def Memory.cells (m : Memory) : (k : TableKind) → List k.Cell
  | .coil => m.coil
  | .disc => m.disc
  | .hold => m.hold
  | .input => m.input

/-- The memory with the cells of table k replaced. -/
def Memory.setCells (m : Memory) : (k : TableKind) → List k.Cell → Memory
  | .coil, v => { m with coil := v }
  | .disc, v => { m with disc := v }
  | .hold, v => { m with hold := v }
  | .input, v => { m with input := v }

/-- `cell_k[i]` (00_scope.md R9), and none at an index the table does not have. -/
def Memory.cell (m : Memory) (k : TableKind) (i : Nat) : Option k.Cell := (m.cells k)[i]?

/-- The memory's form: every table holds exactly `LEN_k` cells (10_state.md R17, R19). -/
def Memory.wf (m : Memory) (c : Config) : Bool :=
  m.coil.length == c.coil.len && m.disc.length == c.disc.len &&
    m.hold.length == c.hold.len && m.input.length == c.input.len

/-- The latches of one frame (10_state.md R26). -/
structure Latches where
  /-- `SID`, the server id of the request. -/
  sid : Byte
  /-- `FC`, the function code of the request. -/
  fc : Byte
  /-- `PAY`, the request payload. -/
  pay : List Byte
  /-- `ADDR`, the starting address. -/
  addr : Word
  /-- `QTY`, the count (FC 1 to 4, 15, 16) or the value (FC 5, 6). -/
  qty : Word
  /-- `BC`, the declared byte count (FC 15, 16). -/
  bc : Byte
  /-- `DATA`, the write data (FC 15, 16). -/
  data : List Byte
  /-- `TXN`, the socket transaction id. -/
  txn : Word
  /-- `PROTO`, the socket protocol id, read by no rule. -/
  proto : Word
  /-- `LENF`, the socket length field. -/
  lenf : Word
  deriving DecidableEq, Repr

/-- The latches when no frame has written them. DESIGN CHOICE (logs 5, 6): the spec leaves their values at reset and
after a poll unspecified, and no rule reads one before the same frame writes it (10_state.md R26, R33). -/
def Latches.unwritten : Latches where
  sid := 0
  fc := 0
  pay := []
  addr := 0
  qty := 0
  bc := 0
  data := []
  txn := 0
  proto := 0
  lenf := 0

/-- The state of the block: every row of 10_state.md R15, and two fields of the model's own for the block's input and
output (`polls`, `outcomes`; 92_eei_decisions.md D2). -/
structure State where
  /-- The configuration, a static input (R16). -/
  cfg : Config
  /-- The data bank (R17 to R21). -/
  mem : Memory
  /-- `RXBUF`, of the serial transport alone (R22). -/
  rxbuf : List Byte
  /-- The CRC register (R24). -/
  crc : Word
  /-- `FSM` (R25). -/
  fsm : Fsm
  /-- The frame latches (R26). -/
  latches : Latches
  /-- `TX`, the response frame under construction (R27). -/
  tx : List Byte
  /-- `FAULT`, sticky (R28). -/
  fault : Bool
  /-- The model's own: the bytes each coming poll delivers, the next poll first (log 1). -/
  polls : List (List Byte)
  /-- The model's own: how each poll so far ended, oldest first (70_reset_and_hazards.md R164; log 2). -/
  outcomes : List PollOutcome
  deriving DecidableEq, Repr

/-- Why the machine stops. -/
inductive Fault where
  /-- FAULT = 1: the block takes no step (10_state.md R28; 60_exceptions.md R137). Raised by step alone, before it looks at
  a poll. Safe: the spec gives such a poll no outcome. -/
  | contractStuck
  deriving DecidableEq, Repr

/-- Why an instruction has no meaning. -/
inductive Refusal where
  /-- The instruction is not modelled. Raised by no arm of exec: every instruction has its meaning. Safe: a refusal
  gives no value. -/
  | notModelled (mnemonic : String)
  deriving DecidableEq, Repr

/-- The state after a reset with the parameters p (70_reset_and_hazards.md R151). The values of CRC (log 4), of the latches
and of TX (log 5) are DESIGN CHOICE: the spec leaves them unspecified. -/
def State.resetWith (p : Params) : State where
  cfg := p.config
  mem :=
    { coil := initialCells p.config.coil.len p.config.coilDefault p.initCoil
      disc := initialCells p.config.disc.len p.config.discDefault p.initDisc
      hold := initialCells p.config.hold.len p.config.holdDefault p.initHold
      input := initialCells p.config.input.len p.config.inputDefault p.initInput }
  rxbuf := []
  crc := 0
  fsm := .idle
  latches := Latches.unwritten
  tx := []
  fault := false
  polls := []
  outcomes := []

/-- The state after reset at the parameter set the model names (Params.standard; log 3). -/
def State.reset : State := State.resetWith Params.standard

end Sys2Proof.Machine
end

