-- ==== Sys2Proof/Machine/Ops.lean ====
section
/-!
DEFINITION. The named operations over State: the field updates, the CRC unit's operations (41_crc16.md R93), the range
validator and the table access (40_register_table.md), the response builder (42_frame_codec.md R102 to R107), taking an
exception and the return from it (60_exceptions.md R134, R142, R143), and the contract fault (R137).
-/
namespace Sys2Proof.Machine

/-! ### Field updates -/

/-- `FSM <- f` (00_scope.md R9). -/
def State.enter (s : State) (f : Fsm) : State := { s with fsm := f }

/-- `CRC <- c`. -/
def State.setCrc (s : State) (c : Word) : State := { s with crc := c }

/-- `RXBUF <- b`. -/
def State.setRxbuf (s : State) (b : List Byte) : State := { s with rxbuf := b }

/-- `TX <- b`. -/
def State.setTx (s : State) (b : List Byte) : State := { s with tx := b }

/-- The data bank replaced. -/
def State.setMem (s : State) (m : Memory) : State := { s with mem := m }

/-- The latches replaced. -/
def State.setLatches (s : State) (l : Latches) : State := { s with latches := l }

/-- The polls still to come replaced. -/
def State.setPolls (s : State) (p : List (List Byte)) : State := { s with polls := p }

/-- `FAULT <- 1` (10_state.md R28). -/
def State.setFault (s : State) : State := { s with fault := true }

/-- The outcome of the poll being handled, recorded (00_scope.md R10). -/
def State.record (s : State) (o : PollOutcome) : State := { s with outcomes := s.outcomes ++ [o] }

/-- `SID <- v` (42_frame_codec.md R96, R100). -/
def State.latchSid (s : State) (v : Byte) : State := s.setLatches { s.latches with sid := v }

/-- `FC <- fc; PAY <- pay` (42_frame_codec.md R97, R100). -/
def State.latchPdu (s : State) (fc : Byte) (pay : List Byte) : State :=
  s.setLatches { s.latches with fc := fc, pay := pay }

/-- `TXN`, `PROTO` and `LENF` (42_frame_codec.md R100). -/
def State.latchHeader (s : State) (txn proto lenf : Word) : State :=
  s.setLatches { s.latches with txn := txn, proto := proto, lenf := lenf }

/-- `ADDR` and `QTY` (43_function_codes.md R119). -/
def State.latchOperands (s : State) (addr qty : Word) : State :=
  s.setLatches { s.latches with addr := addr, qty := qty }

/-- `BC` and `DATA` (43_function_codes.md R128, R129). -/
def State.latchData (s : State) (bc : Byte) (data : List Byte) : State :=
  s.setLatches { s.latches with bc := bc, data := data }

/-! ### The CRC unit (41_crc16.md R93) -/

/-- `CRC_INIT`. -/
def crcInit (s : State) : State := s.setCrc crcInitValue

/-- `CRC_BYTE(b)`. -/
def crcByte (b : Byte) (s : State) : State := s.setCrc (crcByteUpdate s.crc b)

/-- `CRC_BIT(d)`. -/
def crcBit (d : Bool) (s : State) : State := s.setCrc (crcBitUpdate s.crc d)

/-- `CRC_OUT`: the trailer bytes. -/
def crcOut (s : State) : List Byte := toLE16 s.crc

/-- `CRC_CHECK(lo, hi)`. -/
def crcCheck (lo hi : Byte) (s : State) : Bool := s.crc == wordOf hi lo

/-- A whole computation: `CRC_INIT`, then `CRC_BYTE` over the bytes in wire order (R93, R81). -/
def crcCompute (b : List Byte) (s : State) : State := b.foldl (fun t x => crcByte x t) (crcInit s)

/-! ### The validator and the table access (40_register_table.md) -/

/-- `Validate_k(addr, n)` on unbounded naturals (R71), with no bound at 0x10000. DEDUCED (log 19): for a table that runs past
wire address 0xFFFF, R71 accepts a range that starts at a wire address and runs past the last one, and its inference in
20_memory.md R45 says no request reaches those cells. R71 is followed, the only protection check there is (R46). -/
def validate (c : Config) (k : TableKind) (addr n : Nat) : Bool :=
  decide ((c.shape k).base ≤ addr) && decide (addr + n ≤ (c.shape k).base + (c.shape k).len)

/-- The index of the cell a wire address selects (20_memory.md R46). -/
def cellIndex (c : Config) (k : TableKind) (addr : Nat) : Nat := addr - (c.shape k).base

/-- `MemRead_k(addr, n)`, the source's get (R73): the n cells from index `addr - BASE_k`, or the contract error. -/
def memRead (k : TableKind) (addr n : Nat) (s : State) : Except ContractInfo (List k.Cell) :=
  if validate s.cfg k addr n then .ok (((s.mem.cells k).drop (cellIndex s.cfg k addr)).take n)
  else .error (.getOutOfRange k addr n)

/-- `cell[i + j] <- vs[j]`, in ascending index order (R74, 20_memory.md R43). -/
def writeCells {α : Type} (cells : List α) (i : Nat) : List α → List α
  | [] => cells
  | v :: vs => writeCells (cells.set i v) (i + 1) vs

/-- `MemWrite_k(addr, n, vs)` with n = len(vs), the source's set (R74): the n cells from index `addr - BASE_k`
overwritten, or the contract error. -/
def memWrite (k : TableKind) (addr : Nat) (vs : List k.Cell) (s : State) : Except ContractInfo State :=
  if validate s.cfg k addr vs.length then
    .ok (s.setMem (s.mem.setCells k (writeCells (s.mem.cells k) (cellIndex s.cfg k addr) vs)))
  else .error (.setOutOfRange k addr vs.length)

/-! ### Results of a handler, and the response -/

/-- The three exception codes of 60_exceptions.md R133. -/
inductive ExceptionCode where
  | illegalFunction
  | illegalDataAddress
  | illegalDataValue
  deriving DecidableEq, Repr

/-- The byte that carries the code (60_exceptions.md R133). -/
def exceptionByte : ExceptionCode → Byte
  | .illegalFunction => 0x01
  | .illegalDataAddress => 0x02
  | .illegalDataValue => 0x03

/-- A handler's successful result (42_frame_codec.md, "Response build"). -/
inductive Reply where
  /-- `ReadResult(D)`. -/
  | readResult (data : List Byte)
  /-- `SingleWriteAck`. -/
  | singleWriteAck
  /-- `MultiWriteAck`. -/
  | multiWriteAck
  deriving DecidableEq, Repr

/-- How a handler ends, with the state it leaves. -/
inductive Handled where
  | reply (r : Reply) (s : State)
  | exception (c : ExceptionCode) (s : State)
  | contractFault (info : ContractInfo) (s : State)
  deriving DecidableEq, Repr

/-- The state a handler leaves, before the response is built: FSM still in the class the handler ran in
(43_function_codes.md R118). -/
def Handled.state : Handled → State
  | .reply _ s => s
  | .exception _ s => s
  | .contractFault _ s => s

/-- The payload P of a success response. A read: the byte count and the data (42_frame_codec.md R102). A single write:
the four bytes PAY[0..4), which are ADDR and QTY in order (R103; log 16). A multiple write: ADDR and QTY (R104). -/
def replyPayload (l : Latches) : Reply → List Byte
  | .readResult d => BitVec.ofNat 8 d.length :: d
  | .singleWriteAck => toBE16 l.addr ++ toBE16 l.qty
  | .multiWriteAck => toBE16 l.addr ++ toBE16 l.qty

/-- The biased function code of an exception response (60_exceptions.md R134; 90_conflicts.md C1). -/
def exceptionFc (fc : Byte) : Byte := fc ||| 0x80

/-- The envelope around server id, response function code and payload, and `TX` with the frame in it: serial
(42_frame_codec.md R106, 41_crc16.md R87) through the CRC unit, socket R107. -/
def buildTx (fcr : Byte) (p : List Byte) (s : State) : State :=
  match s.cfg.transport with
  | .serial =>
    let body := s.latches.sid :: fcr :: p
    let t := crcCompute body s
    t.setTx (body ++ crcOut t)
  | .socket =>
    s.setTx (toBE16 s.latches.txn ++ [0x00, 0x00] ++ toBE16 (BitVec.ofNat 16 (p.length + 2)) ++
      (s.latches.sid :: fcr :: p))

/-- `FSM <- Respond`, the response built, `Emit(TX)` (43_function_codes.md R118). -/
def respond (fcr : Byte) (p : List Byte) (s : State) : State :=
  let t := buildTx fcr p (s.enter .respond)
  t.record (.emit t.tx)

/-- A success response: the function code is the request's (42_frame_codec.md R102 to R104). -/
def sendReply (fc : Byte) (r : Reply) (s : State) : State := respond fc (replyPayload s.latches r) s

/-- TAKING AN EXCEPTION, `raise ModbusException(code)` (60_exceptions.md R134, R142): the fixed response builder runs with
`FCr = FC | 0x80` and `P = [code]`. Nothing is saved and control goes nowhere else (R141, R142). -/
def takeException (fc : Byte) (code : ExceptionCode) (s : State) : State :=
  respond (exceptionFc fc) [exceptionByte code] s

/-- THE RETURN, from an exception and from a success response alike: `FSM <- Idle` (60_exceptions.md R143). -/
def returnToIdle (s : State) : State := s.enter .idle

/-- `raise ContractFault(info)` (60_exceptions.md R137): `FAULT <- 1` and nothing is emitted. Every later step answers
Fault.contractStuck (log 8). -/
def raiseContractFault (info : ContractInfo) (s : State) : State := (s.record (.contractFault info)).setFault

/-- The end of a handler for function code fc (43_function_codes.md R118). -/
def conclude (fc : Byte) : Handled → State
  | .reply r s => returnToIdle (sendReply fc r s)
  | .exception c s => returnToIdle (takeException fc c s)
  | .contractFault info s => raiseContractFault info s

/-! ### The handlers' shared shapes -/

/-- `FSM <- Dispatch`, then the class of the function code, then ADDR and QTY (43_function_codes.md R118, R119). -/
def beginOperation (c : Fsm) (addr qty : Word) (s : State) : State :=
  ((s.enter .dispatch).enter c).latchOperands addr qty

/-- The largest byte count a read response can carry (43_function_codes.md R131). -/
def maxByteCount : Nat := 255

/-- A read of table k (43_function_codes.md R122 to R125): the range check, the size limit of R131 on the byte count n, the
read, the packing. -/
def readTable (k : TableKind) (pack : List k.Cell → List Byte) (n : Nat) (addr qty : Word) (s : State) : Handled :=
  if validate s.cfg k addr.toNat qty.toNat = false then .exception .illegalDataAddress s
  else if maxByteCount < n then .exception .illegalDataValue s
  else
    match memRead k addr.toNat qty.toNat s with
    | .ok vs => .reply (.readResult (pack vs)) s
    | .error info => .contractFault info s

/-- The write of one cell of table k (43_function_codes.md R126, R127): the range check with a count of 1
(40_register_table.md R72), the value check (`none` is an illegal value), the write. -/
def writeSingle (k : TableKind) (addr : Word) (v : Option k.Cell) (s : State) : Handled :=
  if validate s.cfg k addr.toNat 1 = false then .exception .illegalDataAddress s
  else
    match v with
    | none => .exception .illegalDataValue s
    | some v =>
      match memWrite k addr.toNat [v] s with
      | .ok t => .reply .singleWriteAck t
      | .error info => .contractFault info s

/-- The write of QTY cells of table k (43_function_codes.md R128, R129): the range check, BC and DATA, the unpacking
(`none` when DATA is short), the write. -/
def writeMultiple (k : TableKind) (unpack : List Byte → Nat → Option (List k.Cell)) (addr qty : Word) (bc : Byte)
    (data : List Byte) (s : State) : Handled :=
  if validate s.cfg k addr.toNat qty.toNat = false then .exception .illegalDataAddress s
  else
    let s1 := s.latchData bc data
    match unpack data qty.toNat with
    | none => .exception .illegalDataValue s1
    | some vs =>
      match memWrite k addr.toNat vs s1 with
      | .ok t => .reply .multiWriteAck t
      | .error info => .contractFault info s1

end Sys2Proof.Machine
end

