-- ==== Sys2Proof/Machine/MultipleWrites.lean ====
section
/-!
DEFINITION. The two multiple-write function codes (43_function_codes.md R128, R129), each over writeMultiple.
-/
namespace Sys2Proof.Machine

/-- The handler of FC 0x0F WRITE_MULTIPLE_COILS (R128): DATA is a packed bit string. -/
def handleWriteMultipleCoils (addr qty : Word) (bc : Byte) (data : List Byte) (s : State) : Handled :=
  writeMultiple .coil unpackBits addr qty bc data (beginOperation .writeMultiple addr qty s)

/-- FC 0x0F WRITE_MULTIPLE_COILS (R128): DATA is a packed bit string. -/
def execWriteMultipleCoils (addr qty : Word) (bc : Byte) (data : List Byte) (s : State) : Host.Outcome State Fault Refusal :=
  .next (conclude 0x0F (handleWriteMultipleCoils addr qty bc data s))

/-- The handler of FC 0x10 WRITE_MULTIPLE_REGISTERS (R129): DATA is big-endian words. -/
def handleWriteMultipleRegisters (addr qty : Word) (bc : Byte) (data : List Byte) (s : State) : Handled :=
  writeMultiple .hold unpackWords addr qty bc data (beginOperation .writeMultiple addr qty s)

/-- FC 0x10 WRITE_MULTIPLE_REGISTERS (R129): DATA is big-endian words. -/
def execWriteMultipleRegisters (addr qty : Word) (bc : Byte) (data : List Byte) (s : State) : Host.Outcome State Fault Refusal :=
  .next (conclude 0x10 (handleWriteMultipleRegisters addr qty bc data s))

end Sys2Proof.Machine
end

