-- ==== Sys2Proof/Machine/Reads.lean ====
section
/-!
DEFINITION. The four read function codes (43_function_codes.md R122 to R125), each over readTable.
-/
namespace Sys2Proof.Machine

/-- The handler of FC 0x01 READ_COILS (R122): table COIL, `N = ceil_div(QTY, 8)`. -/
def handleReadCoils (addr qty : Word) (s : State) : Handled :=
  readTable .coil packBits (ceilDiv qty.toNat 8) addr qty (beginOperation .read addr qty s)

/-- FC 0x01 READ_COILS (R122): table COIL, `N = ceil_div(QTY, 8)`. -/
def execReadCoils (addr qty : Word) (s : State) : Host.Outcome State Fault Refusal :=
  .next (conclude 0x01 (handleReadCoils addr qty s))

/-- The handler of FC 0x02 READ_DISCRETE_INPUTS (R123): table DISC, `N = ceil_div(QTY, 8)`. -/
def handleReadDiscreteInputs (addr qty : Word) (s : State) : Handled :=
  readTable .disc packBits (ceilDiv qty.toNat 8) addr qty (beginOperation .read addr qty s)

/-- FC 0x02 READ_DISCRETE_INPUTS (R123): table DISC, `N = ceil_div(QTY, 8)`. -/
def execReadDiscreteInputs (addr qty : Word) (s : State) : Host.Outcome State Fault Refusal :=
  .next (conclude 0x02 (handleReadDiscreteInputs addr qty s))

/-- The handler of FC 0x03 READ_HOLDING_REGISTERS (R124): table HOLD, `N = 2 * QTY`. -/
def handleReadHoldingRegisters (addr qty : Word) (s : State) : Handled :=
  readTable .hold packWords (2 * qty.toNat) addr qty (beginOperation .read addr qty s)

/-- FC 0x03 READ_HOLDING_REGISTERS (R124): table HOLD, `N = 2 * QTY`. -/
def execReadHoldingRegisters (addr qty : Word) (s : State) : Host.Outcome State Fault Refusal :=
  .next (conclude 0x03 (handleReadHoldingRegisters addr qty s))

/-- The handler of FC 0x04 READ_INPUT_REGISTERS (R125): table INPUT, `N = 2 * QTY`. -/
def handleReadInputRegisters (addr qty : Word) (s : State) : Handled :=
  readTable .input packWords (2 * qty.toNat) addr qty (beginOperation .read addr qty s)

/-- FC 0x04 READ_INPUT_REGISTERS (R125): table INPUT, `N = 2 * QTY`. -/
def execReadInputRegisters (addr qty : Word) (s : State) : Host.Outcome State Fault Refusal :=
  .next (conclude 0x04 (handleReadInputRegisters addr qty s))

end Sys2Proof.Machine
end

