-- ==== Sys2Proof/Machine/SingleWrites.lean ====
section
/-!
DEFINITION. The two single-write function codes (43_function_codes.md R126, R127), each over writeSingle.
-/
namespace Sys2Proof.Machine

/-- The handler of FC 0x05 WRITE_SINGLE_COIL (R126): the value is 0xFF00 or 0x0000, else exception 0x03 (30_encoding.md R66). -/
def handleWriteSingleCoil (addr value : Word) (s : State) : Handled :=
  writeSingle .coil addr (coilValue value) (beginOperation .writeSingle addr value s)

/-- FC 0x05 WRITE_SINGLE_COIL (R126): the value is 0xFF00 or 0x0000, else exception 0x03 (30_encoding.md R66). -/
def execWriteSingleCoil (addr value : Word) (s : State) : Host.Outcome State Fault Refusal :=
  .next (conclude 0x05 (handleWriteSingleCoil addr value s))

/-- The handler of FC 0x06 WRITE_SINGLE_REGISTER (R127): any 16-bit value is legal. -/
def handleWriteSingleRegister (addr value : Word) (s : State) : Handled :=
  writeSingle .hold addr (some value) (beginOperation .writeSingle addr value s)

/-- FC 0x06 WRITE_SINGLE_REGISTER (R127): any 16-bit value is legal. -/
def execWriteSingleRegister (addr value : Word) (s : State) : Host.Outcome State Fault Refusal :=
  .next (conclude 0x06 (handleWriteSingleRegister addr value s))

end Sys2Proof.Machine
end

