-- ==== Sys2Proof/Machine/Unsupported.lean ====
section
/-!
DEFINITION. Every function code outside the eight (43_function_codes.md R130).
-/
namespace Sys2Proof.Machine

/-- The handler of every other function code (R130): FSM passes through Dispatch to Unsupported (R118), and the result is
exception 0x01 whatever the payload. -/
def handleUnsupported (s : State) : Handled := .exception .illegalFunction ((s.enter .dispatch).enter .unsupported)

/-- R130: exception 0x01 with function code `FC | 0x80`; the payload is not read and no table is touched. -/
def execUnsupported (fc : Byte) (s : State) : Host.Outcome State Fault Refusal :=
  .next (conclude fc (handleUnsupported s))

end Sys2Proof.Machine
end

