-- ==== Sys2Proof/Machine/Dispatch.lean ====
section
/-!
DEFINITION. One arm per constructor of Instr (30_encoding.md R62, R63; 43_function_codes.md R118).
-/
namespace Sys2Proof.Machine

def exec (i : Instr) (s : State) : Host.Outcome State Fault Refusal :=
  match i with
  | .readCoils addr qty => Sys2Proof.Machine.execReadCoils addr qty s
  | .readDiscreteInputs addr qty => Sys2Proof.Machine.execReadDiscreteInputs addr qty s
  | .readHoldingRegisters addr qty => Sys2Proof.Machine.execReadHoldingRegisters addr qty s
  | .readInputRegisters addr qty => Sys2Proof.Machine.execReadInputRegisters addr qty s
  | .writeSingleCoil addr value => Sys2Proof.Machine.execWriteSingleCoil addr value s
  | .writeSingleRegister addr value => Sys2Proof.Machine.execWriteSingleRegister addr value s
  | .writeMultipleCoils addr qty bc data => Sys2Proof.Machine.execWriteMultipleCoils addr qty bc data s
  | .writeMultipleRegisters addr qty bc data => Sys2Proof.Machine.execWriteMultipleRegisters addr qty bc data s
  | .unsupported fc => Sys2Proof.Machine.execUnsupported fc s

end Sys2Proof.Machine
end

