-- ==== Sys2Proof/Machine/Codec.lean ====
section
/-!
DEFINITION. The frame codec's receive side (42_frame_codec.md R94 to R101, R115) and the end of a poll: how the bytes of one
poll become a frame, how a frame is accepted, retained or dropped, and how its PDU reaches exec.
-/
namespace Sys2Proof.Machine

/-- `SERIAL_MIN_FRAME` (00_scope.md R5). -/
def serialMinFrame : Nat := 8

/-- `SOCK_RX_MAX` (00_scope.md R5). -/
def sockRxMax : Nat := 260

/-- The FSM state of a function code's class (43_function_codes.md R118). -/
def fsmClass (fc : Byte) : Fsm :=
  if fc = 0x01 ∨ fc = 0x02 ∨ fc = 0x03 ∨ fc = 0x04 then .read
  else if fc = 0x05 ∨ fc = 0x06 then .writeSingle
  else if fc = 0x0F ∨ fc = 0x10 then .writeMultiple
  else .unsupported

/-- `Drop()` (00_scope.md R10; 60_exceptions.md R135). -/
def dropFrame (s : State) : State := s.record .drop

/-- `Dispatch()` on the latched PDU (43_function_codes.md R118): the instruction it spells runs; a supported code with a
short payload passes through its class back to Idle and is dropped (42_frame_codec.md R115). -/
def dispatchPdu (s : State) : Host.Outcome State Fault Refusal :=
  match decode (s.latches.fc :: s.latches.pay) with
  | .ok i => exec i s
  | .error _ => .next (dropFrame (((s.enter .dispatch).enter (fsmClass s.latches.fc)).enter .idle))

/-- The state once a serial frame's CRC has been computed over all but its trailer (41_crc16.md R88, R93). -/
def serialChecked (f : List Byte) (s : State) : State := crcCompute (f.take (f.length - 2)) s

/-- Whether a serial frame passes the trailer check (41_crc16.md R88), read off the CRC register. -/
def serialCrcOk (f : List Byte) (s : State) : Bool :=
  crcCheck (f.getD (f.length - 2) 0) (f.getD (f.length - 1) 0) (serialChecked f s)

/-- The state in which a serial frame is dispatched: the CRC register after the check, and SID, FC and PAY latched
(42_frame_codec.md R96, R97). -/
def serialAccepted (f : List Byte) (s : State) : State :=
  ((serialChecked f s).latchSid (f.getD 0 0)).latchPdu (f.getD 1 0) (slice f 2 (f.length - 2))

/-- `SerialFrame(f)` (42_frame_codec.md R96). -/
def serialFrame (f : List Byte) (s : State) : Host.Outcome State Fault Refusal :=
  if serialCrcOk f s = false then .next (dropFrame (serialChecked f s))
  else if f.getD 0 0 ≠ s.cfg.serverId then .next (dropFrame ((serialChecked f s).latchSid (f.getD 0 0)))
  else dispatchPdu (serialAccepted f s)

/-- `SerialPoll(chunk)` after the FAULT check (42_frame_codec.md R94, R95). -/
def serialPoll (chunk : List Byte) (s : State) : Host.Outcome State Fault Refusal :=
  let buf := s.rxbuf ++ chunk
  if buf.length < serialMinFrame then .next ((s.setRxbuf buf).record .retain)
  else serialFrame buf (s.setRxbuf [])

/-- The header latched (42_frame_codec.md R100). -/
def socketChecked (r : List Byte) (s : State) : State := s.latchHeader (be16 r 0) (be16 r 2) (be16 r 4)

/-- The state in which a socket frame is dispatched: the header, SID, FC and PAY latched (42_frame_codec.md R100, R101). -/
def socketAccepted (r : List Byte) (s : State) : State :=
  ((socketChecked r s).latchSid (r.getD 6 0)).latchPdu (r.getD 7 0) (slice r 8 (6 + (be16 r 4).toNat))

/-- `SocketFrame(r)` (42_frame_codec.md R100). -/
def socketFrame (r : List Byte) (s : State) : Host.Outcome State Fault Refusal :=
  if (be16 r 4).toNat < 2 ∨ r.length < 6 + (be16 r 4).toNat then .next (dropFrame (socketChecked r s))
  else if r.getD 6 0 ≠ s.cfg.serverId then .next (dropFrame ((socketChecked r s).latchSid (r.getD 6 0)))
  else dispatchPdu (socketAccepted r s)

/-- `SocketPoll(r)` after the FAULT check (42_frame_codec.md R99): a receive of 0 bytes is the connection's end, one of 1 to 7
bytes is too short; both are dropped. -/
def socketPoll (r : List Byte) (s : State) : Host.Outcome State Fault Refusal :=
  if r.length = 0 then .next (dropFrame s)
  else if r.length < 8 then .next (dropFrame s)
  else socketFrame r s

/-- The bytes one poll delivers when `chunk` is waiting: all of them on the serial transport (R94), at most SOCK_RX_MAX on a
socket (R99). -/
def received (t : Transport) (chunk : List Byte) : List Byte :=
  match t with
  | .serial => chunk
  | .socket => chunk.take sockRxMax

/-- The polls left after it: what a socket receive could not hold comes with the next one (DESIGN CHOICE, log 9). -/
def pollsLeft (t : Transport) (chunk : List Byte) (rest : List (List Byte)) : List (List Byte) :=
  match t with
  | .serial => rest
  | .socket => if chunk.length ≤ sockRxMax then rest else chunk.drop sockRxMax :: rest

/-- One poll that delivers the bytes r (92_eei_decisions.md D4: the parameter TRANSPORT selects the envelope). -/
def handlePoll (r : List Byte) (s : State) : Host.Outcome State Fault Refusal :=
  match s.cfg.transport with
  | .serial => serialPoll r s
  | .socket => socketPoll r s

/-- What the end of a poll discards: the latches and TX (10_state.md R26, R27; log 6). -/
def discardLatches (s : State) : State := (s.setLatches Latches.unwritten).setTx []

/-- The end of the poll. -/
def endPoll : Host.Outcome State Fault Refusal → Host.Outcome State Fault Refusal
  | .next s => .next (discardLatches s)
  | .fault r => .fault r
  | .refused r => .refused r

/-- The serial frame that carries a PDU to server `sid` (30_encoding.md R52). -/
def serialFrameOf (sid : Byte) (pdu : List Byte) : List Byte :=
  (sid :: pdu) ++ toLE16 (crc16 (sid :: pdu))

/-- The socket frame that carries a PDU to server `sid` (30_encoding.md R53), protocol id 0. -/
def socketFrameOf (txn : Word) (sid : Byte) (pdu : List Byte) : List Byte :=
  toBE16 txn ++ [0x00, 0x00] ++ toBE16 (BitVec.ofNat 16 (pdu.length + 1)) ++ (sid :: pdu)

/-- The frame that carries a PDU to this block, in its own transport's envelope. -/
def requestFrame (c : Config) (pdu : List Byte) : List Byte :=
  match c.transport with
  | .serial => serialFrameOf c.serverId pdu
  | .socket => socketFrameOf 0 c.serverId pdu

end Sys2Proof.Machine
end

