-- ==== Sys2Proof/Machine/Step.lean ====
section
/-!
DEFINITION. One step of the block: one poll of the host, handled to its end (92_eei_decisions.md D1).
-/
namespace Sys2Proof.Machine

/-- One poll. While FAULT = 1 there is no step (10_state.md R28). With no poll waiting the block holds its state
(60_exceptions.md R150; 70_reset_and_hazards.md R152; log 1). Otherwise the next poll's bytes are handled
(42_frame_codec.md R94, R99) and the latches and TX are discarded (10_state.md R26, R27). -/
def step (s : State) : Host.Outcome State Fault Refusal :=
  if s.fault then .fault .contractStuck
  else
    match s.polls with
    | [] => .next s
    | chunk :: rest =>
      endPoll (handlePoll (received s.cfg.transport chunk) (s.setPolls (pollsLeft s.cfg.transport chunk rest)))

/-- s with a frame that carries the opcode-table word to this block as the bytes the next poll delivers. It stands for the
host's delivery of a request (log 15): the fetch also needs an empty RXBUF and FAULT = 0. -/
def State.withFetchWord (s : State) (nbits w : Nat) : State :=
  { s with
    polls := requestFrame s.cfg (tableBytes nbits w) :: s.polls
    rxbuf := []
    fault := false }

end Sys2Proof.Machine
end

