-- ==== Sys2Proof/Machine/Handlers.lean ====
section
/-!
DEFINITION. The handler of each instruction by name, for statements about what stands between dispatch and response
(43_function_codes.md R118): each meaning is conclude of its own handler.
-/
namespace Sys2Proof.Machine

/-- How the handler of an instruction ends, and the state it leaves. -/
def handle (i : Instr) (s : State) : Handled :=
  match i with
  | .readCoils addr qty => handleReadCoils addr qty s
  | .readDiscreteInputs addr qty => handleReadDiscreteInputs addr qty s
  | .readHoldingRegisters addr qty => handleReadHoldingRegisters addr qty s
  | .readInputRegisters addr qty => handleReadInputRegisters addr qty s
  | .writeSingleCoil addr value => handleWriteSingleCoil addr value s
  | .writeSingleRegister addr value => handleWriteSingleRegister addr value s
  | .writeMultipleCoils addr qty bc data => handleWriteMultipleCoils addr qty bc data s
  | .writeMultipleRegisters addr qty bc data => handleWriteMultipleRegisters addr qty bc data s
  | .unsupported _ => handleUnsupported s

end Sys2Proof.Machine
end

