-- ==== Sys2Proof/Safety.lean ====
section
/-!
DEFINITION. The terms in which the claims speak: the invariant of the block between polls, equality of the state that
survives a poll, the frame of a response, the state an answered request leaves, and the exception the rules give a request.
Everything here is written from the rules and not from the operations of Machine/.
-/
namespace Sys2Proof.Machine

/-- What holds between polls: the tables hold `LEN_k` cells each (10_state.md R17, R19), RXBUF holds 0 to 7 bytes (R22) and
none on a socket (R22, R23), FSM is Idle (R25), FAULT is 0 (R28). -/
abbrev State.Inv (s : State) : Prop :=
  s.mem.wf s.cfg = true ∧ s.rxbuf.length < 8 ∧ (s.cfg.transport = .socket → s.rxbuf = []) ∧
    s.fsm = .idle ∧ s.fault = false

/-- s and t agree on all that is not transient (10_state.md R15): configuration, data bank, RXBUF and FAULT, and on the
polls to come and the outcomes so far. -/
abbrev PersistentEq (s t : State) : Prop :=
  s.cfg = t.cfg ∧ s.mem = t.mem ∧ s.rxbuf = t.rxbuf ∧ s.fault = t.fault ∧ s.polls = t.polls ∧
    s.outcomes = t.outcomes

/-- The response frame for function code byte fcr and payload p, to the request in the latches: serial R106, socket R107
(42_frame_codec.md), server id R108. -/
def responseFrame (s : State) (fcr : Byte) (p : List Byte) : List Byte :=
  match s.cfg.transport with
  | .serial => [s.latches.sid, fcr] ++ p ++ toLE16 (crc16 ([s.latches.sid, fcr] ++ p))
  | .socket =>
    toBE16 s.latches.txn ++ [0x00, 0x00] ++ toBE16 (BitVec.ofNat 16 (p.length + 2)) ++ [s.latches.sid, fcr] ++ p

/-- The CRC register after that frame is built: the CRC of its body on the serial transport, untouched on a socket
(41_crc16.md R80, R87). -/
def crcAfter (s : State) (fcr : Byte) (p : List Byte) : Word :=
  match s.cfg.transport with
  | .serial => crc16 ([s.latches.sid, fcr] ++ p)
  | .socket => s.crc

/-- s after its request was answered with (fcr, p), with data bank m and latches l: TX emitted, FSM back in Idle
(43_function_codes.md R118), and every other field as it was. -/
def answered (s : State) (m : Memory) (l : Latches) (fcr : Byte) (p : List Byte) : State :=
  { s with
    mem := m
    latches := l
    fsm := .idle
    crc := crcAfter s fcr p
    tx := responseFrame s fcr p
    outcomes := s.outcomes ++ [.emit (responseFrame s fcr p)] }

/-- [addr, addr + n) lies in the addresses of table k (20_memory.md R45; 40_register_table.md R71). -/
abbrev InRange (c : Config) (k : TableKind) (addr n : Nat) : Prop :=
  (c.shape k).base ≤ addr ∧ addr + n ≤ (c.shape k).base + (c.shape k).len

/-- The table and the range a request addresses (43_function_codes.md R120; 40_register_table.md R72). -/
def rangeOf : Instr → Option (TableKind × Nat × Nat)
  | .readCoils addr qty => some (.coil, addr.toNat, qty.toNat)
  | .readDiscreteInputs addr qty => some (.disc, addr.toNat, qty.toNat)
  | .readHoldingRegisters addr qty => some (.hold, addr.toNat, qty.toNat)
  | .readInputRegisters addr qty => some (.input, addr.toNat, qty.toNat)
  | .writeSingleCoil addr _ => some (.coil, addr.toNat, 1)
  | .writeSingleRegister addr _ => some (.hold, addr.toNat, 1)
  | .writeMultipleCoils addr qty _ _ => some (.coil, addr.toNat, qty.toNat)
  | .writeMultipleRegisters addr qty _ _ => some (.hold, addr.toNat, qty.toNat)
  | .unsupported _ => none

/-- Order 7 of 60_exceptions.md R139: FC 5 value illegal; FC 15/16 data short; FC 1-4 byte count over 255. -/
def valueIllegal : Instr → Bool
  | .readCoils _ qty => decide (2040 < qty.toNat)
  | .readDiscreteInputs _ qty => decide (2040 < qty.toNat)
  | .readHoldingRegisters _ qty => decide (127 < qty.toNat)
  | .readInputRegisters _ qty => decide (127 < qty.toNat)
  | .writeSingleCoil _ value => decide (value ≠ 0xFF00 ∧ value ≠ 0x0000)
  | .writeSingleRegister _ _ => false
  | .writeMultipleCoils _ qty _ data => decide (8 * data.length < qty.toNat)
  | .writeMultipleRegisters _ qty _ data => decide (data.length < 2 * qty.toNat)
  | .unsupported _ => false

/-- The exception code a request gets, in the order of 60_exceptions.md R139 (orders 5, 6, 7); none is a success. -/
def exceptionOf (c : Config) (i : Instr) : Option Byte :=
  match rangeOf i with
  | none => some 0x01
  | some (k, addr, n) =>
    if ¬ InRange c k addr n then some 0x02
    else if valueIllegal i then some 0x03
    else none

/-- The function code byte of a frame (30_encoding.md R52, R53). -/
def frameCode (t : Transport) (f : List Byte) : Byte :=
  match t with
  | .serial => f.getD 1 0
  | .socket => f.getD 7 0

end Sys2Proof.Machine
end

