-- ==== Sys2Proof/Certificates/Slice0/Obligations.lean ====
section
/-!
DEFINITION. The statements for the provers. Each is a Prop about the machine, never about a program; the docstring names the
rules of spec/ it formalises.
-/

open Sys2Proof Sys2Proof.Machine

/-! ### Encoding -/

/-- R55 to R58, R62, R63: decoding the PDU of a well-formed instruction gives the instruction back, with every operand at every
value. -/
def Obligations.DecodeOfEncodeIsIdentity : Prop :=
  ∀ i : Instr, i.wellFormed = true → decode (encode i) = .ok i

/-- R70: bytes past the layout change nothing. A multiple write's layout ends at 5 + BC, so its DATA must be all there. -/
def Obligations.DecodeIgnoresBytesPastTheLayout : Prop :=
  ∀ (i : Instr) (extra : List Byte), i.wellFormed = true →
    (∀ addr qty bc data,
      i = .writeMultipleCoils addr qty bc data ∨ i = .writeMultipleRegisters addr qty bc data →
        data.length = bc.toNat) →
    decode (encode i ++ extra) = .ok i

/-- R56 to R58, R62: whatever PDU an instruction was decoded from, the instruction is well formed, its function code is the PDU's
first byte, and for a supported code its encoding has the PDU's first five bytes (function code, address, count or value). -/
def Obligations.DecodedInstructionMatchesItsPdu : Prop :=
  ∀ (p : List Byte) (i : Instr), decode p = .ok i →
    i.wellFormed = true ∧ p.head? = some (functionCode i) ∧
      (isSupported (functionCode i) = true → 5 ≤ p.length ∧ (encode i).take 5 = p.take 5)

/-- R115, R130: the decoder refuses exactly the empty PDU and a supported code with fewer than four payload bytes. -/
def Obligations.DecoderRefusesExactlyShortPdus : Prop :=
  ∀ p : List Byte,
    (∃ e, decode p = .error e) ↔
      p = [] ∨ ∃ fc pay, p = fc :: pay ∧ isSupported fc = true ∧ pay.length < 4

/-- R56 to R58, R62 and the vectors of 95_test_vectors.md: PDUs written out byte by byte decode to what they stand for. -/
def Obligations.WrittenOutPdusDecode : Prop :=
  decode [0x01, 0x00, 0x64, 0x00, 0x0A] = .ok (.readCoils 100 10) ∧
    decode [0x03, 0x00, 0xC8, 0x00, 0x05] = .ok (.readHoldingRegisters 200 5) ∧
    decode [0x05, 0x00, 0x65, 0xFF, 0x00] = .ok (.writeSingleCoil 101 0xFF00) ∧
    decode [0x10, 0x00, 0xC9, 0x00, 0x02, 0x04, 0x12, 0x34, 0xAB, 0xCD] =
      .ok (.writeMultipleRegisters 201 2 4 [0x12, 0x34, 0xAB, 0xCD]) ∧
    decode [0x2B, 0x0E, 0x01, 0x00, 0x00] = .ok (.unsupported 0x2B)

/-! ### The CRC unit -/

/-- R82: each of the 256 entries of the table is eight shifts of its index, with the polynomial wherever a 1 falls out. -/
def Obligations.CrcTableIsItsConstruction : Prop :=
  crcTable.length = 256 ∧
    ∀ i : Byte,
      crcEntry i =
        (List.range 8).foldl
          (fun (c : Word) (_ : Nat) => if c.getLsbD 0 = true then (c >>> 1) ^^^ 0xA001 else c >>> 1) (i.setWidth 16)

/-- From R82, R83 and R84 (the spec draws this inference itself, in R85): the bit-serial generator and the table-driven one agree
on every register value and byte, and so on every sequence. -/
def Obligations.BitSerialCrcEqualsTableCrc : Prop :=
  (∀ (crc : Word) (b : Byte), crcByteSerial crc b = crcByteUpdate crc b) ∧
    ∀ bytes : List Byte, bytes.foldl crcByteSerial 0xFFFF = crc16 bytes

/-- From R81 and R88 (the spec gives this property from general knowledge, in R90): the CRC of a body with its trailer is 0, and
testing for 0 accepts exactly the frames the trailer comparison accepts. -/
def Obligations.CrcResidueIsZeroExactlyForGoodFrames : Prop :=
  (∀ body : List Byte, crc16 (body ++ toLE16 (crc16 body)) = 0) ∧
    ∀ f : List Byte, 2 ≤ f.length →
      (crc16 f = 0 ↔
        crc16 (f.take (f.length - 2)) = wordOf (f.getD (f.length - 1) 0) (f.getD (f.length - 2) 0))

/-- From R81: the reference values (the spec lists them as its own inference, in R91; the last is the source's example). -/
def Obligations.CrcReferenceValues : Prop :=
  crc16 [] = 0xFFFF ∧
    crc16 [0x31, 0x32, 0x33, 0x34, 0x35, 0x36, 0x37, 0x38, 0x39] = 0x4B37 ∧
    crc16 [0x11, 0x03, 0x00, 0x6B, 0x00, 0x03] = 0x8776

/-- R93: the five operations of the CRC unit and nothing else they touch; a frame check and a trailer generation made of them, by
bytes or by bits, give CRC16. -/
def Obligations.CrcUnitOperations : Prop :=
  ∀ (s : State) (b lo hi : Byte) (d : Bool) (body : List Byte),
    crcInit s = { s with crc := 0xFFFF } ∧
      crcByte b s = { s with crc := crcByteUpdate s.crc b } ∧
      crcBit d s = { s with crc := crcBitUpdate s.crc d } ∧
      crcOut s = [s.crc.setWidth 8, (s.crc >>> 8).setWidth 8] ∧
      (crcCheck lo hi s = true ↔ s.crc = (hi.setWidth 16 <<< 8) ||| lo.setWidth 16) ∧
      body.foldl (fun t x => crcByte x t) (crcInit s) = { s with crc := crc16 body } ∧
      body.foldl (fun t x => (List.range 8).foldl (fun u j => crcBit (x.getLsbD j) u) t) (crcInit s) =
        { s with crc := crc16 body }

/-- R98: a frame with a good CRC followed by exactly one byte 0x00 also passes the check. -/
def Obligations.TrailingZeroByteKeepsTheCrcGood : Prop :=
  ∀ (f : List Byte) (s : State), 2 ≤ f.length → serialCrcOk f s = true → serialCrcOk (f ++ [0x00]) s = true

/-! ### The packer -/

/-- R109: ceil_div(n, 8) bytes; bit j mod 8 of byte j / 8 is vs[j]; the bits past the last are 0. -/
def Obligations.PackBitsPlacesEveryBit : Prop :=
  ∀ vs : List Bool,
    (packBits vs).length = (vs.length + 7) / 8 ∧
      (∀ j, j < vs.length → vs[j]? = some (((packBits vs).getD (j / 8) 0).getLsbD (j % 8))) ∧
      ∀ j, vs.length ≤ j → j < 8 * (packBits vs).length → ((packBits vs).getD (j / 8) 0).getLsbD (j % 8) = false

/-- R113: packing bits and unpacking as many gives the sequence back. -/
def Obligations.BitPackingRoundTrip : Prop :=
  ∀ vs : List Bool, unpackBits (packBits vs) vs.length = some vs

/-- From R111 and R112 (the spec's own inference, R114): packing words and unpacking as many gives the sequence back. -/
def Obligations.WordPackingRoundTrip : Prop :=
  ∀ vs : List Word, unpackWords (packWords vs) vs.length = some vs

/-- R110, R112: unpacking fails exactly when the data is short, and else gives the first n values of the data in order; whole
bytes past what the count needs change nothing. -/
def Obligations.UnpackingTakesTheFirstValues : Prop :=
  ∀ (d extra : List Byte) (n : Nat),
    (unpackBits d n = none ↔ 8 * d.length < n) ∧
      (unpackWords d n = none ↔ d.length < 2 * n) ∧
      (∀ vs, unpackBits d n = some vs →
        vs.length = n ∧ ∀ j, j < n → vs[j]? = some (((d.getD (j / 8) 0) >>> (j % 8)).getLsbD 0)) ∧
      (∀ vs, unpackWords d n = some vs →
        vs.length = n ∧ ∀ j, j < n → vs[j]? = some (wordOf (d.getD (2 * j) 0) (d.getD (2 * j + 1) 0))) ∧
      (n ≤ 8 * d.length → unpackBits (d ++ extra) n = unpackBits d n) ∧
      (2 * n ≤ d.length → unpackWords (d ++ extra) n = unpackWords d n)

/-- R111: 2n bytes, each word high byte first. -/
def Obligations.PackWordsPlacesEveryByte : Prop :=
  ∀ vs : List Word,
    (packWords vs).length = 2 * vs.length ∧
      ∀ j, j < vs.length →
        vs[j]? = some (wordOf ((packWords vs).getD (2 * j) 0) ((packWords vs).getD (2 * j + 1) 0))

/-! ### The validator and the table access -/

/-- R71: true exactly when the range lies in the table, so (the inference the spec marks as its own in R79) true inside, false one
below the base and one past the end. -/
def Obligations.ValidatorBoundaries : Prop :=
  ∀ (c : Config) (k : TableKind) (addr n : Nat),
    (validate c k addr n = true ↔
        (c.shape k).base ≤ addr ∧ addr + n ≤ (c.shape k).base + (c.shape k).len) ∧
      ((c.shape k).base ≤ addr ∧ addr + n ≤ (c.shape k).base + (c.shape k).len → validate c k addr n = true) ∧
      (1 ≤ (c.shape k).base ∧ addr = (c.shape k).base - 1 → validate c k addr n = false) ∧
      (addr + n = (c.shape k).base + (c.shape k).len + 1 → validate c k addr n = false)

/-- R73: a valid get returns the n cells from index addr - BASE upward, an invalid one raises the contract fault. -/
def Obligations.GetReturnsTheCellsOfTheRange : Prop :=
  ∀ (k : TableKind) (addr n : Nat) (s : State),
    (s.mem.wf s.cfg = true → InRange s.cfg k addr n →
      ∃ vs, memRead k addr n s = .ok vs ∧ vs.length = n ∧
        ∀ j, j < n → vs[j]? = s.mem.cell k (addr - (s.cfg.shape k).base + j)) ∧
      (¬ InRange s.cfg k addr n → memRead k addr n s = .error (.getOutOfRange k addr n))

/-- R74: a valid set overwrites exactly the cells of its range and no other state, an invalid one raises the contract fault. -/
def Obligations.SetWritesExactlyTheRange : Prop :=
  ∀ (k : TableKind) (addr : Nat) (vs : List k.Cell) (s : State),
    (s.mem.wf s.cfg = true → InRange s.cfg k addr vs.length →
      ∃ m, memWrite k addr vs s = .ok { s with mem := m } ∧
        (∀ j, j < vs.length → m.cell k (addr - (s.cfg.shape k).base + j) = vs[j]?) ∧
        ∀ k' j,
          (k' = k → j < addr - (s.cfg.shape k).base ∨ addr - (s.cfg.shape k).base + vs.length ≤ j) →
            m.cell k' j = s.mem.cell k' j) ∧
      (¬ InRange s.cfg k addr vs.length → memWrite k addr vs s = .error (.setOutOfRange k addr vs.length))

/-! ### The function codes -/

/-- R122. -/
def Obligations.ReadCoilsResult : Prop :=
  ∀ (addr qty : Word) (s : State),
    (s.mem.wf s.cfg = true → InRange s.cfg .coil addr.toNat qty.toNat → qty.toNat ≤ 2040 →
      ∃ d : List Byte,
        exec (.readCoils addr qty) s =
            .next (answered s s.mem { s.latches with addr := addr, qty := qty } 0x01
              (BitVec.ofNat 8 ((qty.toNat + 7) / 8) :: d)) ∧
          d.length = (qty.toNat + 7) / 8 ∧
          (∀ j, j < qty.toNat → s.mem.cell .coil (addr.toNat - s.cfg.coil.base + j) = some (bitAt d j)) ∧
          ∀ j, qty.toNat ≤ j → j < 8 * d.length → bitAt d j = false) ∧
      (¬ InRange s.cfg .coil addr.toNat qty.toNat →
        exec (.readCoils addr qty) s =
          .next (answered s s.mem { s.latches with addr := addr, qty := qty } 0x81 [0x02])) ∧
      (InRange s.cfg .coil addr.toNat qty.toNat → 2040 < qty.toNat →
        exec (.readCoils addr qty) s =
          .next (answered s s.mem { s.latches with addr := addr, qty := qty } 0x81 [0x03]))

/-- R123. -/
def Obligations.ReadDiscreteInputsResult : Prop :=
  ∀ (addr qty : Word) (s : State),
    (s.mem.wf s.cfg = true → InRange s.cfg .disc addr.toNat qty.toNat → qty.toNat ≤ 2040 →
      ∃ d : List Byte,
        exec (.readDiscreteInputs addr qty) s =
            .next (answered s s.mem { s.latches with addr := addr, qty := qty } 0x02
              (BitVec.ofNat 8 ((qty.toNat + 7) / 8) :: d)) ∧
          d.length = (qty.toNat + 7) / 8 ∧
          (∀ j, j < qty.toNat → s.mem.cell .disc (addr.toNat - s.cfg.disc.base + j) = some (bitAt d j)) ∧
          ∀ j, qty.toNat ≤ j → j < 8 * d.length → bitAt d j = false) ∧
      (¬ InRange s.cfg .disc addr.toNat qty.toNat →
        exec (.readDiscreteInputs addr qty) s =
          .next (answered s s.mem { s.latches with addr := addr, qty := qty } 0x82 [0x02])) ∧
      (InRange s.cfg .disc addr.toNat qty.toNat → 2040 < qty.toNat →
        exec (.readDiscreteInputs addr qty) s =
          .next (answered s s.mem { s.latches with addr := addr, qty := qty } 0x82 [0x03]))

/-- R124. -/
def Obligations.ReadHoldingRegistersResult : Prop :=
  ∀ (addr qty : Word) (s : State),
    (s.mem.wf s.cfg = true → InRange s.cfg .hold addr.toNat qty.toNat → qty.toNat ≤ 127 →
      ∃ d : List Byte,
        exec (.readHoldingRegisters addr qty) s =
            .next (answered s s.mem { s.latches with addr := addr, qty := qty } 0x03
              (BitVec.ofNat 8 (2 * qty.toNat) :: d)) ∧
          d.length = 2 * qty.toNat ∧
          ∀ j, j < qty.toNat →
            s.mem.cell .hold (addr.toNat - s.cfg.hold.base + j) = some (wordOf (d.getD (2 * j) 0) (d.getD (2 * j + 1) 0))) ∧
      (¬ InRange s.cfg .hold addr.toNat qty.toNat →
        exec (.readHoldingRegisters addr qty) s =
          .next (answered s s.mem { s.latches with addr := addr, qty := qty } 0x83 [0x02])) ∧
      (InRange s.cfg .hold addr.toNat qty.toNat → 127 < qty.toNat →
        exec (.readHoldingRegisters addr qty) s =
          .next (answered s s.mem { s.latches with addr := addr, qty := qty } 0x83 [0x03]))

/-- R125. -/
def Obligations.ReadInputRegistersResult : Prop :=
  ∀ (addr qty : Word) (s : State),
    (s.mem.wf s.cfg = true → InRange s.cfg .input addr.toNat qty.toNat → qty.toNat ≤ 127 →
      ∃ d : List Byte,
        exec (.readInputRegisters addr qty) s =
            .next (answered s s.mem { s.latches with addr := addr, qty := qty } 0x04
              (BitVec.ofNat 8 (2 * qty.toNat) :: d)) ∧
          d.length = 2 * qty.toNat ∧
          ∀ j, j < qty.toNat →
            s.mem.cell .input (addr.toNat - s.cfg.input.base + j) =
              some (wordOf (d.getD (2 * j) 0) (d.getD (2 * j + 1) 0))) ∧
      (¬ InRange s.cfg .input addr.toNat qty.toNat →
        exec (.readInputRegisters addr qty) s =
          .next (answered s s.mem { s.latches with addr := addr, qty := qty } 0x84 [0x02])) ∧
      (InRange s.cfg .input addr.toNat qty.toNat → 127 < qty.toNat →
        exec (.readInputRegisters addr qty) s =
          .next (answered s s.mem { s.latches with addr := addr, qty := qty } 0x84 [0x03]))

/-- R126: the one cell is at index ADDR - BASE; every other cell of every table keeps its value. -/
def Obligations.WriteSingleCoilResult : Prop :=
  ∀ (addr value : Word) (s : State),
    (s.mem.wf s.cfg = true → InRange s.cfg .coil addr.toNat 1 → value = 0xFF00 ∨ value = 0x0000 →
      ∃ m : Memory,
        exec (.writeSingleCoil addr value) s =
            .next (answered s m { s.latches with addr := addr, qty := value } 0x05 (toBE16 addr ++ toBE16 value)) ∧
          m.cell .coil (addr.toNat - s.cfg.coil.base) = some (decide (value = 0xFF00)) ∧
          ∀ k j, (k = .coil → j ≠ addr.toNat - s.cfg.coil.base) → m.cell k j = s.mem.cell k j) ∧
      (¬ InRange s.cfg .coil addr.toNat 1 →
        exec (.writeSingleCoil addr value) s =
          .next (answered s s.mem { s.latches with addr := addr, qty := value } 0x85 [0x02])) ∧
      (InRange s.cfg .coil addr.toNat 1 → value ≠ 0xFF00 → value ≠ 0x0000 →
        exec (.writeSingleCoil addr value) s =
          .next (answered s s.mem { s.latches with addr := addr, qty := value } 0x85 [0x03]))

/-- R127. -/
def Obligations.WriteSingleRegisterResult : Prop :=
  ∀ (addr value : Word) (s : State),
    (s.mem.wf s.cfg = true → InRange s.cfg .hold addr.toNat 1 →
      ∃ m : Memory,
        exec (.writeSingleRegister addr value) s =
            .next (answered s m { s.latches with addr := addr, qty := value } 0x06 (toBE16 addr ++ toBE16 value)) ∧
          m.cell .hold (addr.toNat - s.cfg.hold.base) = some value ∧
          ∀ k j, (k = .hold → j ≠ addr.toNat - s.cfg.hold.base) → m.cell k j = s.mem.cell k j) ∧
      (¬ InRange s.cfg .hold addr.toNat 1 →
        exec (.writeSingleRegister addr value) s =
          .next (answered s s.mem { s.latches with addr := addr, qty := value } 0x86 [0x02]))

/-- R128: BC and DATA come from the payload (no byte 4 means BC = 0 and no DATA; the bytes that are there and that BC counts are
DATA); the bits of DATA, least significant first, go to the QTY cells from index ADDR - BASE. -/
def Obligations.WriteMultipleCoilsResult : Prop :=
  ∀ (addr qty : Word) (bc : Byte) (data : List Byte) (s : State),
    (∀ (a b c d n : Byte) (tail : List Byte),
      decode (0x0F :: a :: b :: c :: d :: n :: tail) =
          .ok (.writeMultipleCoils (wordOf a b) (wordOf c d) n (tail.take n.toNat)) ∧
        decode [0x0F, a, b, c, d] = .ok (.writeMultipleCoils (wordOf a b) (wordOf c d) 0 [])) ∧
      (s.mem.wf s.cfg = true → InRange s.cfg .coil addr.toNat qty.toNat → qty.toNat ≤ 8 * data.length →
      ∃ m : Memory,
        exec (.writeMultipleCoils addr qty bc data) s =
            .next (answered s m { s.latches with addr := addr, qty := qty, bc := bc, data := data } 0x0F
              (toBE16 addr ++ toBE16 qty)) ∧
          (∀ j, j < qty.toNat →
            m.cell .coil (addr.toNat - s.cfg.coil.base + j) = some ((data.getD (j / 8) 0).getLsbD (j % 8))) ∧
          ∀ k j,
            (k = .coil →
              j < addr.toNat - s.cfg.coil.base ∨ addr.toNat - s.cfg.coil.base + qty.toNat ≤ j) →
              m.cell k j = s.mem.cell k j) ∧
      (¬ InRange s.cfg .coil addr.toNat qty.toNat →
        exec (.writeMultipleCoils addr qty bc data) s =
          .next (answered s s.mem { s.latches with addr := addr, qty := qty } 0x8F [0x02])) ∧
      (InRange s.cfg .coil addr.toNat qty.toNat → 8 * data.length < qty.toNat →
        exec (.writeMultipleCoils addr qty bc data) s =
          .next (answered s s.mem { s.latches with addr := addr, qty := qty, bc := bc, data := data } 0x8F [0x03]))

/-- R129: BC and DATA come from the payload as in R128; the big-endian words of DATA go to the QTY cells from index ADDR - BASE.
-/
def Obligations.WriteMultipleRegistersResult : Prop :=
  ∀ (addr qty : Word) (bc : Byte) (data : List Byte) (s : State),
    (∀ (a b c d n : Byte) (tail : List Byte),
      decode (0x10 :: a :: b :: c :: d :: n :: tail) =
          .ok (.writeMultipleRegisters (wordOf a b) (wordOf c d) n (tail.take n.toNat)) ∧
        decode [0x10, a, b, c, d] = .ok (.writeMultipleRegisters (wordOf a b) (wordOf c d) 0 [])) ∧
      (s.mem.wf s.cfg = true → InRange s.cfg .hold addr.toNat qty.toNat → 2 * qty.toNat ≤ data.length →
      ∃ m : Memory,
        exec (.writeMultipleRegisters addr qty bc data) s =
            .next (answered s m { s.latches with addr := addr, qty := qty, bc := bc, data := data } 0x10
              (toBE16 addr ++ toBE16 qty)) ∧
          (∀ j, j < qty.toNat →
            m.cell .hold (addr.toNat - s.cfg.hold.base + j) =
              some (wordOf (data.getD (2 * j) 0) (data.getD (2 * j + 1) 0))) ∧
          ∀ k j,
            (k = .hold →
              j < addr.toNat - s.cfg.hold.base ∨ addr.toNat - s.cfg.hold.base + qty.toNat ≤ j) →
              m.cell k j = s.mem.cell k j) ∧
      (¬ InRange s.cfg .hold addr.toNat qty.toNat →
        exec (.writeMultipleRegisters addr qty bc data) s =
          .next (answered s s.mem { s.latches with addr := addr, qty := qty } 0x90 [0x02])) ∧
      (InRange s.cfg .hold addr.toNat qty.toNat → data.length < 2 * qty.toNat →
        exec (.writeMultipleRegisters addr qty bc data) s =
          .next (answered s s.mem { s.latches with addr := addr, qty := qty, bc := bc, data := data } 0x90 [0x03]))

/-- R130: every code outside 0x01 to 0x06, 0x0F and 0x10, with any payload, is answered with exception 0x01 and function code `FC
| 0x80`, and touches no table. -/
def Obligations.UnsupportedCodesAnswerIllegalFunction : Prop :=
  ∀ (fc : Byte) (pay : List Byte) (s : State),
    fc ∉ ([0x01, 0x02, 0x03, 0x04, 0x05, 0x06, 0x0F, 0x10] : List Byte) →
      decode (fc :: pay) = .ok (.unsupported fc) ∧
        exec (.unsupported fc) s = .next (answered s s.mem s.latches (fc ||| 0x80) [0x01])

/-- From R71, R122 to R125, R128 and R129; the clause on the validator is the inference the spec marks as its own in R75, and that
a count of 0 is legal at all is its decision there (D13): a count of 0 is legal for every multi-cell code. The validator accepts
it from BASE to BASE + LEN inclusive; a read then answers byte count 0 and no data, a write writes nothing and acknowledges. -/
def Obligations.ZeroCountIsLegal : Prop :=
  ∀ (addr : Word) (bc : Byte) (data : List Byte) (s : State),
    (∀ k, validate s.cfg k addr.toNat 0 = true ↔
      (s.cfg.shape k).base ≤ addr.toNat ∧ addr.toNat ≤ (s.cfg.shape k).base + (s.cfg.shape k).len) ∧
      (InRange s.cfg .coil addr.toNat 0 →
        exec (.readCoils addr 0) s =
            .next (answered s s.mem { s.latches with addr := addr, qty := 0 } 0x01 [0x00]) ∧
          exec (.writeMultipleCoils addr 0 bc data) s =
            .next (answered s s.mem { s.latches with addr := addr, qty := 0, bc := bc, data := data } 0x0F
              (toBE16 addr ++ [0x00, 0x00]))) ∧
      (InRange s.cfg .disc addr.toNat 0 →
        exec (.readDiscreteInputs addr 0) s =
          .next (answered s s.mem { s.latches with addr := addr, qty := 0 } 0x02 [0x00])) ∧
      (InRange s.cfg .hold addr.toNat 0 →
        exec (.readHoldingRegisters addr 0) s =
            .next (answered s s.mem { s.latches with addr := addr, qty := 0 } 0x03 [0x00]) ∧
          exec (.writeMultipleRegisters addr 0 bc data) s =
            .next (answered s s.mem { s.latches with addr := addr, qty := 0, bc := bc, data := data } 0x10
              (toBE16 addr ++ [0x00, 0x00]))) ∧
      (InRange s.cfg .input addr.toNat 0 →
        exec (.readInputRegisters addr 0) s =
          .next (answered s s.mem { s.latches with addr := addr, qty := 0 } 0x04 [0x00]))

/-- R133, R134 and orders 5 to 8 of R139: every instruction, from every state, answers one frame. Which exception it gets, if any,
is decided by function code, then range, then value. That a success leaves DISC and INPUT alone is R18; that an exception touches
no cell is the inference the spec marks as its own in R42 and R141. -/
def Obligations.EveryInstructionAnswersByThePriorityOfChecks : Prop :=
  ∀ (i : Instr) (s : State),
    ∃ (m : Memory) (l : Latches) (fcr : Byte) (p : List Byte),
      exec i s = .next (answered s m l fcr p) ∧
        match exceptionOf s.cfg i with
        | some code => fcr = functionCode i ||| 0x80 ∧ p = [code] ∧ m = s.mem
        | none => fcr = functionCode i ∧ m.disc = s.mem.disc ∧ m.input = s.mem.input

/-- R106, R107: the envelope of a response on each transport, emitted as the poll's one frame. -/
def Obligations.ResponseEnvelopes : Prop :=
  ∀ (fcr : Byte) (p : List Byte) (s : State),
    (s.cfg.transport = .serial →
      (respond fcr p s).tx = [s.latches.sid, fcr] ++ p ++ toLE16 (crc16 ([s.latches.sid, fcr] ++ p))) ∧
      (s.cfg.transport = .socket →
        (respond fcr p s).tx =
          toBE16 s.latches.txn ++ [0x00, 0x00] ++ toBE16 (BitVec.ofNat 16 (p.length + 2)) ++ [s.latches.sid, fcr] ++ p) ∧
      (respond fcr p s).outcomes = s.outcomes ++ [.emit (respond fcr p s).tx]

/-- R134: the serial and the socket form of an exception response, for each code. That no cell and no configuration changes, and
that the return leaves FSM in Idle, are inferences the spec marks as its own in R141 and R143 (R118 gives the last step of FSM).
-/
def Obligations.ExceptionResponseForms : Prop :=
  ∀ (fc : Byte) (code : ExceptionCode) (s : State),
    (s.cfg.transport = .serial →
      (takeException fc code s).outcomes =
        s.outcomes ++
          [.emit ([s.latches.sid, fc ||| 0x80, exceptionByte code] ++
            toLE16 (crc16 [s.latches.sid, fc ||| 0x80, exceptionByte code]))]) ∧
      (s.cfg.transport = .socket →
        (takeException fc code s).outcomes =
          s.outcomes ++
            [.emit (toBE16 s.latches.txn ++
              [0x00, 0x00, 0x00, 0x03, s.latches.sid, fc ||| 0x80, exceptionByte code])]) ∧
      (takeException fc code s).mem = s.mem ∧ (takeException fc code s).cfg = s.cfg ∧
      (returnToIdle (takeException fc code s)).fsm = .idle

/-- R137: a contract fault sets FAULT and emits nothing, and a state with FAULT = 1 takes no step. That the fault is recorded as
the poll's outcome is the model's choice (logs 2, 8). -/
def Obligations.ContractFaultStopsTheBlock : Prop :=
  ∀ (fc : Byte) (info : ContractInfo) (s : State),
    conclude fc (.contractFault info s) =
        { s with fault := true, outcomes := s.outcomes ++ [.contractFault info] } ∧
      step (conclude fc (.contractFault info s)) = .fault .contractStuck ∧
      (s.fault = true → step s = .fault .contractStuck)

/-- From R124 and R129 (the spec's own inference, R48 and R162): registers written by one frame are read back, byte for byte, by
the next. -/
def Obligations.WrittenRegistersReadBack : Prop :=
  ∀ (addr qty : Word) (bc : Byte) (data : List Byte) (s t : State),
    s.mem.wf s.cfg = true → InRange s.cfg .hold addr.toNat qty.toNat → 2 * qty.toNat ≤ data.length →
      qty.toNat ≤ 127 → exec (.writeMultipleRegisters addr qty bc data) s = .next t →
      ∃ u : State,
        exec (.readHoldingRegisters addr qty) t = .next u ∧
          u.outcomes =
            t.outcomes ++
              [.emit (responseFrame t 0x03 (BitVec.ofNat 8 (2 * qty.toNat) :: data.take (2 * qty.toNat)))]

/-! ### The step -/

/-- R94 to R97, R118: when the bytes received make a serial frame that is accepted and whose PDU decodes to i, the step is exec of
i on the state with the frame consumed, the CRC register at the frame's CRC and the latches written; the end of the poll follows
(logs 1, 6). -/
def Obligations.SerialStepRunsTheDecodedInstruction : Prop :=
  ∀ (s : State) (chunk : List Byte) (rest : List (List Byte)) (f : List Byte) (i : Instr),
    s.fault = false → s.cfg.transport = .serial → s.polls = chunk :: rest → f = s.rxbuf ++ chunk → 8 ≤ f.length →
      crc16 (f.take (f.length - 2)) = wordOf (f.getD (f.length - 1) 0) (f.getD (f.length - 2) 0) →
      f.getD 0 0 = s.cfg.serverId → decode (f.getD 1 0 :: slice f 2 (f.length - 2)) = .ok i →
      step s =
        endPoll (exec i
          { s with
            polls := rest
            rxbuf := []
            crc := crc16 (f.take (f.length - 2))
            latches :=
              { s.latches with sid := f.getD 0 0, fc := f.getD 1 0, pay := slice f 2 (f.length - 2) } })

/-- R99 to R101, R118: the same for a socket frame. -/
def Obligations.SocketStepRunsTheDecodedInstruction : Prop :=
  ∀ (s : State) (r : List Byte) (rest : List (List Byte)) (i : Instr),
    s.fault = false → s.cfg.transport = .socket → s.polls = r :: rest → 8 ≤ r.length → r.length ≤ 260 →
      2 ≤ (be16 r 4).toNat → 6 + (be16 r 4).toNat ≤ r.length → r.getD 6 0 = s.cfg.serverId →
      decode (r.getD 7 0 :: slice r 8 (6 + (be16 r 4).toNat)) = .ok i →
      step s =
        endPoll (exec i
          { s with
            polls := rest
            latches :=
              { s.latches with
                txn := be16 r 0
                proto := be16 r 2
                lenf := be16 r 4
                sid := r.getD 6 0
                fc := r.getD 7 0
                pay := slice r 8 (6 + (be16 r 4).toNat) } })

/-- R150, R152: with no poll waiting and FAULT = 0 the block holds its state (that a step is taken at all then is the model's
choice, log 1). -/
def Obligations.BlockHoldsItsStateBetweenPolls : Prop :=
  ∀ s : State, s.fault = false → s.polls = [] → step s = .next s

/-- R52, R53, R95 to R101: the frame that carries a PDU to this block, on either transport, runs the instruction the PDU spells,
on a state with the frame consumed, the tables as they were and the PDU in the latches. -/
def Obligations.RequestFrameRunsItsInstruction : Prop :=
  ∀ (s : State) (pdu : List Byte) (i : Instr) (rest : List (List Byte)),
    s.fault = false → s.rxbuf = [] → s.polls = requestFrame s.cfg pdu :: rest → decode pdu = .ok i →
      5 ≤ pdu.length → pdu.length ≤ 253 →
      ∃ u : State,
        step s = endPoll (exec i u) ∧
          u.cfg = s.cfg ∧ u.mem = s.mem ∧ u.rxbuf = [] ∧ u.fault = false ∧ u.polls = rest ∧
          u.outcomes = s.outcomes ∧ u.latches.sid = s.cfg.serverId ∧ u.latches.fc :: u.latches.pay = pdu

/-- R139, order by order, on the serial transport. That an exception changes no cell is the inference the spec marks as its own in
R42 and R141. -/
def Obligations.SerialPollFollowsTheOrderOfChecks : Prop :=
  ∀ (s : State) (chunk : List Byte) (rest : List (List Byte)) (f : List Byte),
    s.cfg.transport = .serial → s.polls = chunk :: rest → f = s.rxbuf ++ chunk →
      (s.fault = true → step s = .fault .contractStuck) ∧
        (s.fault = false →
          ∃ t : State,
            step s = .next t ∧ t.polls = rest ∧
              (f.length < 8 → t.rxbuf = f ∧ t.mem = s.mem ∧ t.outcomes = s.outcomes ++ [.retain]) ∧
              (8 ≤ f.length → t.rxbuf = []) ∧
              (8 ≤ f.length →
                crc16 (f.take (f.length - 2)) ≠ wordOf (f.getD (f.length - 1) 0) (f.getD (f.length - 2) 0) →
                t.mem = s.mem ∧ t.outcomes = s.outcomes ++ [.drop]) ∧
              (8 ≤ f.length →
                crc16 (f.take (f.length - 2)) = wordOf (f.getD (f.length - 1) 0) (f.getD (f.length - 2) 0) →
                f.getD 0 0 ≠ s.cfg.serverId →
                t.mem = s.mem ∧ t.outcomes = s.outcomes ++ [.drop]) ∧
              (8 ≤ f.length →
                crc16 (f.take (f.length - 2)) = wordOf (f.getD (f.length - 1) 0) (f.getD (f.length - 2) 0) →
                f.getD 0 0 = s.cfg.serverId →
                ∃ i : Instr,
                  decode (f.getD 1 0 :: slice f 2 (f.length - 2)) = .ok i ∧
                    match exceptionOf s.cfg i with
                    | some code =>
                      t.mem = s.mem ∧
                        t.outcomes =
                          s.outcomes ++ [.emit (serialFrameOf s.cfg.serverId [f.getD 1 0 ||| 0x80, code])]
                    | none =>
                      ∃ p : List Byte,
                        t.outcomes = s.outcomes ++ [.emit (serialFrameOf s.cfg.serverId (f.getD 1 0 :: p))]))

/-- R140, order by order, on the socket transport, for receives of at most 260 bytes (log 9 has the rest). That an exception
changes no cell is the inference the spec marks as its own in R42 and R141. -/
def Obligations.SocketPollFollowsTheOrderOfChecks : Prop :=
  ∀ (s : State) (r : List Byte) (rest : List (List Byte)),
    s.cfg.transport = .socket → s.polls = r :: rest → r.length ≤ 260 →
      (s.fault = true → step s = .fault .contractStuck) ∧
        (s.fault = false →
          ∃ t : State,
            step s = .next t ∧ t.polls = rest ∧ t.rxbuf = s.rxbuf ∧
              (r.length < 8 → t.mem = s.mem ∧ t.outcomes = s.outcomes ++ [.drop]) ∧
              (8 ≤ r.length → ((be16 r 4).toNat < 2 ∨ r.length < 6 + (be16 r 4).toNat) →
                t.mem = s.mem ∧ t.outcomes = s.outcomes ++ [.drop]) ∧
              (8 ≤ r.length → 2 ≤ (be16 r 4).toNat → 6 + (be16 r 4).toNat ≤ r.length →
                r.getD 6 0 ≠ s.cfg.serverId → t.mem = s.mem ∧ t.outcomes = s.outcomes ++ [.drop]) ∧
              (8 ≤ r.length → 2 ≤ (be16 r 4).toNat → 6 + (be16 r 4).toNat ≤ r.length →
                r.getD 6 0 = s.cfg.serverId → isSupported (r.getD 7 0) = true → (be16 r 4).toNat - 2 < 4 →
                t.mem = s.mem ∧ t.outcomes = s.outcomes ++ [.drop]) ∧
              (8 ≤ r.length → 2 ≤ (be16 r 4).toNat → 6 + (be16 r 4).toNat ≤ r.length →
                r.getD 6 0 = s.cfg.serverId → (isSupported (r.getD 7 0) = false ∨ 6 ≤ (be16 r 4).toNat) →
                ∃ i : Instr,
                  decode (r.getD 7 0 :: slice r 8 (6 + (be16 r 4).toNat)) = .ok i ∧
                    match exceptionOf s.cfg i with
                    | some code =>
                      t.mem = s.mem ∧
                        t.outcomes =
                          s.outcomes ++
                            [.emit (socketFrameOf (be16 r 0) s.cfg.serverId [r.getD 7 0 ||| 0x80, code])]
                    | none =>
                      ∃ p : List Byte,
                        t.outcomes =
                          s.outcomes ++ [.emit (socketFrameOf (be16 r 0) s.cfg.serverId (r.getD 7 0 :: p))]))

/-- R103, and with R106, R107 and R87 the inference its last sentence marks as the spec's own: the answer to a successful single
write carries the first four payload bytes of the request, whatever follows them, and is byte for byte the request when the
request is an 8-byte serial frame, or a socket frame with protocol id 0, LENF = 6 and nothing past offset 12. -/
def Obligations.SingleWriteEchoesTheRequest : Prop :=
  ∀ (s : State) (f : List Byte) (rest : List (List Byte)) (i : Instr),
    s.fault = false → s.rxbuf = [] → s.polls = f :: rest → 8 ≤ f.length →
      (s.cfg.transport = .socket → f.length ≤ 260) →
      exceptionOf s.cfg i = none →
      frameCode s.cfg.transport f ∈ ([0x05, 0x06] : List Byte) →
      (s.cfg.transport = .serial →
        crc16 (f.take (f.length - 2)) = wordOf (f.getD (f.length - 1) 0) (f.getD (f.length - 2) 0) →
        f.getD 0 0 = s.cfg.serverId → decode (f.getD 1 0 :: slice f 2 (f.length - 2)) = .ok i →
        ∃ t : State,
          step s = .next t ∧
            t.outcomes =
              s.outcomes ++
                [.emit (serialFrameOf s.cfg.serverId (f.getD 1 0 :: (slice f 2 (f.length - 2)).take 4))] ∧
            (f.length = 8 → t.outcomes = s.outcomes ++ [.emit f])) ∧
      (s.cfg.transport = .socket →
        2 ≤ (be16 f 4).toNat → 6 + (be16 f 4).toNat ≤ f.length → f.getD 6 0 = s.cfg.serverId →
        decode (f.getD 7 0 :: slice f 8 (6 + (be16 f 4).toNat)) = .ok i →
        ∃ t : State,
          step s = .next t ∧
            t.outcomes =
              s.outcomes ++
                [.emit (socketFrameOf (be16 f 0) s.cfg.serverId
                  (f.getD 7 0 :: (slice f 8 (6 + (be16 f 4).toNat)).take 4))] ∧
            (be16 f 2 = 0 → be16 f 4 = 6 → f.length = 12 → t.outcomes = s.outcomes ++ [.emit f]))

/-- From R94, R99 and R118 (the spec's own inference, R116; the list of outcomes is the model's, log 2): a poll ends in exactly
one outcome, after which nothing else was emitted; a step with no poll adds none. -/
def Obligations.EveryPollHasExactlyOneOutcome : Prop :=
  ∀ s t : State, step s = .next t →
    (s.polls = [] → t.outcomes = s.outcomes) ∧ (s.polls ≠ [] → ∃ o, t.outcomes = s.outcomes ++ [o])

/-- From R126, R128, R129 and R139 (the spec's own inference, R42 and R141): a poll that ends in a drop, a retained fragment or an
exception response writes no cell, no configuration and no FAULT. -/
def Obligations.DropsAndExceptionsWriteNothing : Prop :=
  ∀ (s t : State) (o : PollOutcome),
    s.polls ≠ [] → step s = .next t → t.outcomes = s.outcomes ++ [o] →
      (o = .drop ∨ o = .retain ∨ ∃ f, o = .emit f ∧ (frameCode s.cfg.transport f).getLsbD 7 = true) →
      t.mem = s.mem ∧ t.cfg = s.cfg ∧ t.fault = s.fault

/-- From R102 to R107 and R131 (the spec's own inference, R69): a response has at most 260 bytes on the serial transport and at
most 264 on a socket. -/
def Obligations.ResponsesAreBounded : Prop :=
  ∀ (s t : State) (f : List Byte),
    s.polls ≠ [] → step s = .next t → t.outcomes = s.outcomes ++ [.emit f] →
      (s.cfg.transport = .serial → f.length ≤ 260) ∧ (s.cfg.transport = .socket → f.length ≤ 264)

/-- R137, R28, R76: no rule reaches the contract fault: from FAULT = 0 every step answers a next state, again with FAULT = 0. -/
def Obligations.TheBlockNeverStopsByItself : Prop :=
  ∀ s : State, s.fault = false → ∃ t : State, step s = .next t ∧ t.fault = false

/-- R17, R19, R22, R25, R28: every step keeps the tables at LEN_k cells, RXBUF under 8 bytes and empty on a socket, FSM in Idle
and FAULT at 0. -/
def Obligations.EveryStepKeepsTheInvariant : Prop :=
  ∀ s t : State, s.Inv → step s = .next t → t.Inv

/-- R151: the invariant holds after a reset with any parameters. -/
def Obligations.ResetMeetsTheInvariant : Prop :=
  ∀ p : Params, (State.resetWith p).Inv

/-- R20 and R151: after a reset with any parameters, cell i of table k is INIT_k[i] where supplied, else DEFAULT_k, and there is
no cell from LEN_k on; with it the values R151 gives for configuration, RXBUF, FSM and FAULT. R5 rules out an INIT_k longer than
LEN_k: that the cells past LEN_k are then left out is the model's choice (log 12). -/
def Obligations.ResetValues : Prop :=
  ∀ (p : Params) (i : Nat),
    (State.resetWith p).mem.cell .coil i =
        (if i < p.config.coil.len then some (p.initCoil.getD i p.config.coilDefault) else none) ∧
      (State.resetWith p).mem.cell .disc i =
        (if i < p.config.disc.len then some (p.initDisc.getD i p.config.discDefault) else none) ∧
      (State.resetWith p).mem.cell .hold i =
        (if i < p.config.hold.len then some (p.initHold.getD i p.config.holdDefault) else none) ∧
      (State.resetWith p).mem.cell .input i =
        (if i < p.config.input.len then some (p.initInput.getD i p.config.inputDefault) else none) ∧
      (State.resetWith p).cfg = p.config ∧ (State.resetWith p).rxbuf = [] ∧ (State.resetWith p).fsm = .idle ∧
      (State.resetWith p).fault = false

/-- R19, and from R18 the inference the spec marks as its own in R21: over a run of any length from any state, the configuration,
the DISC and INPUT cells and the size of every table stay as they are. -/
def Obligations.RunsKeepConfigurationAndReadOnlyTables : Prop :=
  ∀ (n : Nat) (s t : State), Host.Core.run Sys2Proof.core n s = .next t →
    t.cfg = s.cfg ∧ t.mem.disc = s.mem.disc ∧ t.mem.input = s.mem.input ∧
      ∀ k, (t.mem.cells k).length = (s.mem.cells k).length

/-- From R26, R33, R94 and R99 (the spec's own inference, R165): no rule reads transient state. Two states that agree on
configuration, tables, RXBUF, FAULT, the polls and the outcomes, whatever their latches, CRC, FSM and TX, end the next poll alike
and agree again. -/
def Obligations.OutcomesDependOnPersistentStateAlone : Prop :=
  ∀ s1 s2 : State, PersistentEq s1 s2 →
    (∀ t1 : State, step s1 = .next t1 → ∃ t2 : State, step s2 = .next t2 ∧ PersistentEq t1 t2) ∧
      ∀ e : Fault, step s1 = .fault e → step s2 = .fault e

/-- From R122 to R125 (the spec's own inference, R132), for a read request delivered twice in a row: the same outcome both times,
and no cell changes. -/
def Obligations.RepeatedReadRequestAnswersAlike : Prop :=
  ∀ (s : State) (c : List Byte) (rest : List (List Byte)),
    s.fault = false → s.rxbuf = [] → s.polls = c :: c :: rest → 8 ≤ c.length →
      (s.cfg.transport = .socket → c.length ≤ 260) →
      frameCode s.cfg.transport c ∈ ([0x01, 0x02, 0x03, 0x04] : List Byte) →
      ∃ (t u : State) (o : PollOutcome),
        step s = .next t ∧ step t = .next u ∧ t.outcomes = s.outcomes ++ [o] ∧
          u.outcomes = t.outcomes ++ [o] ∧ u.mem = s.mem

/-- From R94 and R95 (the spec's own inference, R157): a first piece that leaves RXBUF under 8 bytes is retained, and the second
then ends as the two delivered together would. -/
def Obligations.FragmentsJoinAcrossPolls : Prop :=
  ∀ (s : State) (c1 c2 : List Byte) (rest : List (List Byte)),
    s.fault = false → s.cfg.transport = .serial → s.polls = c1 :: c2 :: rest → (s.rxbuf ++ c1).length < 8 →
      ∃ (t u v : State) (o : PollOutcome),
        step s = .next t ∧ step t = .next u ∧ step { s with polls := (c1 ++ c2) :: rest } = .next v ∧
          t.outcomes = s.outcomes ++ [.retain] ∧ u.outcomes = t.outcomes ++ [o] ∧
          v.outcomes = s.outcomes ++ [o] ∧ u.mem = v.mem ∧ u.rxbuf = v.rxbuf ∧ u.cfg = v.cfg ∧
          u.polls = v.polls ∧ u.fault = v.fault

/-- R118: the class of each function code, and the way of FSM through every instruction. The meaning of an instruction is the end
of its own handler; the handler runs in the class of the instruction's function code, the response is built in Respond, and the
instruction ends in Idle. -/
def Obligations.FsmClassOfEveryFunctionCode : Prop :=
  (∀ fc : Byte,
    fsmClass fc =
      (if fc ∈ ([0x01, 0x02, 0x03, 0x04] : List Byte) then .read
      else if fc ∈ ([0x05, 0x06] : List Byte) then .writeSingle
      else if fc ∈ ([0x0F, 0x10] : List Byte) then .writeMultiple
      else .unsupported)) ∧
    (∀ (i : Instr) (s : State), i.wellFormed = true →
      (handle i s).state.fsm = fsmClass (functionCode i) ∧
        ∃ t : State, exec i s = .next t ∧ t = conclude (functionCode i) (handle i s) ∧ t.fsm = .idle) ∧
    ∀ (fc : Byte) (s : State),
      (∀ r : Reply, (sendReply fc r s).fsm = .respond ∧ conclude fc (.reply r s) = returnToIdle (sendReply fc r s)) ∧
        ∀ c : ExceptionCode,
          (takeException fc c s).fsm = .respond ∧ conclude fc (.exception c s) = returnToIdle (takeException fc c s)

/-- R45 and R46: a wire address selects a cell of table k exactly when it lies in [BASE_k, BASE_k + LEN_k); the cell's index is
the address less BASE_k, and no single address selects a cell from index 0x10000 - BASE_k on. That a range which starts at a wire
address and stays in the table is accepted also where it runs past 0xFFFF is R71's formula, against the inference R45 draws in its
last sentence (the model's choice, log 19). -/
def Obligations.WireAddressesSelectTheirCells : Prop :=
  ∀ (c : Config) (k : TableKind) (addr : Word),
    (validate c k addr.toNat 1 = true ↔
        (c.shape k).base ≤ addr.toNat ∧ addr.toNat < (c.shape k).base + (c.shape k).len) ∧
      (validate c k addr.toNat 1 = true →
        (c.shape k).base + cellIndex c k addr.toNat = addr.toNat ∧ cellIndex c k addr.toNat < (c.shape k).len ∧
          cellIndex c k addr.toNat < 0x10000 - (c.shape k).base) ∧
      ∀ n : Nat,
        InRange c k addr.toNat n → 0x10000 < addr.toNat + n → validate c k addr.toNat n = true
end

