-- ==== Sys2Proof/Laws/Operands.lean ====
section
/-!
SUPPORT. The small lemmas of the field assembly and the packer (Machine/Operands.lean).
-/
namespace Sys2Proof.Machine

@[simp] theorem hiByte_wordOf (hi lo : Byte) : hiByte (wordOf hi lo) = hi := by
  apply BitVec.eq_of_getLsbD_eq
  intro i h
  have h1 : i < 16 := by omega
  have h2 : 8 + i < 16 := by omega
  simp [hiByte, wordOf, h, h1, h2]

@[simp] theorem loByte_wordOf (hi lo : Byte) : loByte (wordOf hi lo) = lo := by
  apply BitVec.eq_of_getLsbD_eq
  intro i h
  simp [loByte, wordOf, h]

@[simp] theorem wordOf_hiByte_loByte (v : Word) : wordOf (hiByte v) (loByte v) = v := by
  apply BitVec.eq_of_getLsbD_eq
  intro i h
  by_cases h8 : i < 8
  · simp [hiByte, loByte, wordOf, h8, h]
  · have : 8 + (i - 8) = i := by omega
    simp [hiByte, loByte, wordOf, h8, h, this]
    intro _; omega

/-- Two words are equal when their bytes are. -/
theorem wordOf_inj {a b c d : Byte} (h : wordOf a b = wordOf c d) : a = c ∧ b = d :=
  ⟨by simpa using congrArg hiByte h, by simpa using congrArg loByte h⟩

@[simp] theorem length_toBE16 (v : Word) : (toBE16 v).length = 2 := rfl

@[simp] theorem length_toLE16 (v : Word) : (toLE16 v).length = 2 := rfl

/-- Reading a big-endian field at the offset where it was written gives it back. -/
theorem be16_toBE16 (pre rest : List Byte) (v : Word) : be16 (pre ++ (toBE16 v ++ rest)) pre.length = v := by
  simp [be16, toBE16, List.getD]

@[simp] theorem be16_cons_cons (hi lo : Byte) (rest : List Byte) : be16 (hi :: lo :: rest) 0 = wordOf hi lo := rfl

/-- A field moves with the bytes before it. -/
@[simp] theorem be16_cons_succ (b : Byte) (rest : List Byte) (i : Nat) : be16 (b :: rest) (i + 1) = be16 rest i := rfl

/-- The two fields of a payload spell its first four bytes: what lets the single-write echo PAY[0..4) be built from ADDR
and QTY (42_frame_codec.md R103; log 16). -/
theorem fields_spell_payload (pay : List Byte) (h : 4 ≤ pay.length) :
    toBE16 (be16 pay 0) ++ toBE16 (be16 pay 2) = pay.take 4 := by
  match pay, h with
  | a :: b :: c :: d :: rest, _ => simp [be16, toBE16]

theorem length_slice (b : List Byte) (i j : Nat) : (slice b i j).length = min (j - i) (b.length - i) := by
  simp [slice]

@[simp] theorem length_packBits (vs : List Bool) : (packBits vs).length = ceilDiv vs.length 8 := by
  simp [packBits]

@[simp] theorem length_packWords (vs : List Word) : (packWords vs).length = 2 * vs.length := by
  induction vs with
  | nil => rfl
  | cons v vs ih =>
    have h : packWords (v :: vs) = toBE16 v ++ packWords vs := by simp [packWords]
    rw [h, List.length_append, ih]
    simp
    omega

/-- UnpackBits fails exactly when the data is short, and else gives the bits in order. -/
theorem unpackBits_eq (d : List Byte) (n : Nat) :
    unpackBits d n = if 8 * d.length < n then none else some ((List.range n).map (bitAt d)) := rfl

theorem length_of_unpackBits {d : List Byte} {n : Nat} {vs : List Bool} (h : unpackBits d n = some vs) :
    vs.length = n := by
  simp only [unpackBits] at h
  split at h
  · cases h
  · cases h; simp

theorem length_of_unpackWords {d : List Byte} {n : Nat} {vs : List Word} (h : unpackWords d n = some vs) :
    vs.length = n := by
  simp only [unpackWords] at h
  split at h
  · cases h
  · cases h; simp

@[simp] theorem length_initialCells {α : Type} (len : Nat) (dflt : α) (init : List α) :
    (initialCells len dflt init).length = len := by
  simp [initialCells]
  omega

end Sys2Proof.Machine
end

