-- ==== Sys2Proof/Laws/State.lean ====
section
/-!
SUPPORT. One lemma per field per update of State, each true by rfl, so that no later proof unfolds a record update.
-/
namespace Sys2Proof.Machine

variable (s : State)

/-! ### State.enter -/

@[simp] theorem State.enter_cfg (f : Fsm) : (s.enter f).cfg = s.cfg := rfl
@[simp] theorem State.enter_mem (f : Fsm) : (s.enter f).mem = s.mem := rfl
@[simp] theorem State.enter_rxbuf (f : Fsm) : (s.enter f).rxbuf = s.rxbuf := rfl
@[simp] theorem State.enter_crc (f : Fsm) : (s.enter f).crc = s.crc := rfl
@[simp] theorem State.enter_fsm (f : Fsm) : (s.enter f).fsm = f := rfl
@[simp] theorem State.enter_latches (f : Fsm) : (s.enter f).latches = s.latches := rfl
@[simp] theorem State.enter_tx (f : Fsm) : (s.enter f).tx = s.tx := rfl
@[simp] theorem State.enter_fault (f : Fsm) : (s.enter f).fault = s.fault := rfl
@[simp] theorem State.enter_polls (f : Fsm) : (s.enter f).polls = s.polls := rfl
@[simp] theorem State.enter_outcomes (f : Fsm) : (s.enter f).outcomes = s.outcomes := rfl

/-! ### State.setCrc -/

@[simp] theorem State.setCrc_cfg (c : Word) : (s.setCrc c).cfg = s.cfg := rfl
@[simp] theorem State.setCrc_mem (c : Word) : (s.setCrc c).mem = s.mem := rfl
@[simp] theorem State.setCrc_rxbuf (c : Word) : (s.setCrc c).rxbuf = s.rxbuf := rfl
@[simp] theorem State.setCrc_crc (c : Word) : (s.setCrc c).crc = c := rfl
@[simp] theorem State.setCrc_fsm (c : Word) : (s.setCrc c).fsm = s.fsm := rfl
@[simp] theorem State.setCrc_latches (c : Word) : (s.setCrc c).latches = s.latches := rfl
@[simp] theorem State.setCrc_tx (c : Word) : (s.setCrc c).tx = s.tx := rfl
@[simp] theorem State.setCrc_fault (c : Word) : (s.setCrc c).fault = s.fault := rfl
@[simp] theorem State.setCrc_polls (c : Word) : (s.setCrc c).polls = s.polls := rfl
@[simp] theorem State.setCrc_outcomes (c : Word) : (s.setCrc c).outcomes = s.outcomes := rfl

/-! ### State.setRxbuf -/

@[simp] theorem State.setRxbuf_cfg (b : List Byte) : (s.setRxbuf b).cfg = s.cfg := rfl
@[simp] theorem State.setRxbuf_mem (b : List Byte) : (s.setRxbuf b).mem = s.mem := rfl
@[simp] theorem State.setRxbuf_rxbuf (b : List Byte) : (s.setRxbuf b).rxbuf = b := rfl
@[simp] theorem State.setRxbuf_crc (b : List Byte) : (s.setRxbuf b).crc = s.crc := rfl
@[simp] theorem State.setRxbuf_fsm (b : List Byte) : (s.setRxbuf b).fsm = s.fsm := rfl
@[simp] theorem State.setRxbuf_latches (b : List Byte) : (s.setRxbuf b).latches = s.latches := rfl
@[simp] theorem State.setRxbuf_tx (b : List Byte) : (s.setRxbuf b).tx = s.tx := rfl
@[simp] theorem State.setRxbuf_fault (b : List Byte) : (s.setRxbuf b).fault = s.fault := rfl
@[simp] theorem State.setRxbuf_polls (b : List Byte) : (s.setRxbuf b).polls = s.polls := rfl
@[simp] theorem State.setRxbuf_outcomes (b : List Byte) : (s.setRxbuf b).outcomes = s.outcomes := rfl

/-! ### State.setTx -/

@[simp] theorem State.setTx_cfg (b : List Byte) : (s.setTx b).cfg = s.cfg := rfl
@[simp] theorem State.setTx_mem (b : List Byte) : (s.setTx b).mem = s.mem := rfl
@[simp] theorem State.setTx_rxbuf (b : List Byte) : (s.setTx b).rxbuf = s.rxbuf := rfl
@[simp] theorem State.setTx_crc (b : List Byte) : (s.setTx b).crc = s.crc := rfl
@[simp] theorem State.setTx_fsm (b : List Byte) : (s.setTx b).fsm = s.fsm := rfl
@[simp] theorem State.setTx_latches (b : List Byte) : (s.setTx b).latches = s.latches := rfl
@[simp] theorem State.setTx_tx (b : List Byte) : (s.setTx b).tx = b := rfl
@[simp] theorem State.setTx_fault (b : List Byte) : (s.setTx b).fault = s.fault := rfl
@[simp] theorem State.setTx_polls (b : List Byte) : (s.setTx b).polls = s.polls := rfl
@[simp] theorem State.setTx_outcomes (b : List Byte) : (s.setTx b).outcomes = s.outcomes := rfl

/-! ### State.setMem -/

@[simp] theorem State.setMem_cfg (m : Memory) : (s.setMem m).cfg = s.cfg := rfl
@[simp] theorem State.setMem_mem (m : Memory) : (s.setMem m).mem = m := rfl
@[simp] theorem State.setMem_rxbuf (m : Memory) : (s.setMem m).rxbuf = s.rxbuf := rfl
@[simp] theorem State.setMem_crc (m : Memory) : (s.setMem m).crc = s.crc := rfl
@[simp] theorem State.setMem_fsm (m : Memory) : (s.setMem m).fsm = s.fsm := rfl
@[simp] theorem State.setMem_latches (m : Memory) : (s.setMem m).latches = s.latches := rfl
@[simp] theorem State.setMem_tx (m : Memory) : (s.setMem m).tx = s.tx := rfl
@[simp] theorem State.setMem_fault (m : Memory) : (s.setMem m).fault = s.fault := rfl
@[simp] theorem State.setMem_polls (m : Memory) : (s.setMem m).polls = s.polls := rfl
@[simp] theorem State.setMem_outcomes (m : Memory) : (s.setMem m).outcomes = s.outcomes := rfl

/-! ### State.setLatches -/

@[simp] theorem State.setLatches_cfg (l : Latches) : (s.setLatches l).cfg = s.cfg := rfl
@[simp] theorem State.setLatches_mem (l : Latches) : (s.setLatches l).mem = s.mem := rfl
@[simp] theorem State.setLatches_rxbuf (l : Latches) : (s.setLatches l).rxbuf = s.rxbuf := rfl
@[simp] theorem State.setLatches_crc (l : Latches) : (s.setLatches l).crc = s.crc := rfl
@[simp] theorem State.setLatches_fsm (l : Latches) : (s.setLatches l).fsm = s.fsm := rfl
@[simp] theorem State.setLatches_latches (l : Latches) : (s.setLatches l).latches = l := rfl
@[simp] theorem State.setLatches_tx (l : Latches) : (s.setLatches l).tx = s.tx := rfl
@[simp] theorem State.setLatches_fault (l : Latches) : (s.setLatches l).fault = s.fault := rfl
@[simp] theorem State.setLatches_polls (l : Latches) : (s.setLatches l).polls = s.polls := rfl
@[simp] theorem State.setLatches_outcomes (l : Latches) : (s.setLatches l).outcomes = s.outcomes := rfl

/-! ### State.setPolls -/

@[simp] theorem State.setPolls_cfg (p : List (List Byte)) : (s.setPolls p).cfg = s.cfg := rfl
@[simp] theorem State.setPolls_mem (p : List (List Byte)) : (s.setPolls p).mem = s.mem := rfl
@[simp] theorem State.setPolls_rxbuf (p : List (List Byte)) : (s.setPolls p).rxbuf = s.rxbuf := rfl
@[simp] theorem State.setPolls_crc (p : List (List Byte)) : (s.setPolls p).crc = s.crc := rfl
@[simp] theorem State.setPolls_fsm (p : List (List Byte)) : (s.setPolls p).fsm = s.fsm := rfl
@[simp] theorem State.setPolls_latches (p : List (List Byte)) : (s.setPolls p).latches = s.latches := rfl
@[simp] theorem State.setPolls_tx (p : List (List Byte)) : (s.setPolls p).tx = s.tx := rfl
@[simp] theorem State.setPolls_fault (p : List (List Byte)) : (s.setPolls p).fault = s.fault := rfl
@[simp] theorem State.setPolls_polls (p : List (List Byte)) : (s.setPolls p).polls = p := rfl
@[simp] theorem State.setPolls_outcomes (p : List (List Byte)) : (s.setPolls p).outcomes = s.outcomes := rfl

/-! ### State.setFault -/

@[simp] theorem State.setFault_cfg : (s.setFault).cfg = s.cfg := rfl
@[simp] theorem State.setFault_mem : (s.setFault).mem = s.mem := rfl
@[simp] theorem State.setFault_rxbuf : (s.setFault).rxbuf = s.rxbuf := rfl
@[simp] theorem State.setFault_crc : (s.setFault).crc = s.crc := rfl
@[simp] theorem State.setFault_fsm : (s.setFault).fsm = s.fsm := rfl
@[simp] theorem State.setFault_latches : (s.setFault).latches = s.latches := rfl
@[simp] theorem State.setFault_tx : (s.setFault).tx = s.tx := rfl
@[simp] theorem State.setFault_fault : (s.setFault).fault = true := rfl
@[simp] theorem State.setFault_polls : (s.setFault).polls = s.polls := rfl
@[simp] theorem State.setFault_outcomes : (s.setFault).outcomes = s.outcomes := rfl

/-! ### State.record -/

@[simp] theorem State.record_cfg (o : PollOutcome) : (s.record o).cfg = s.cfg := rfl
@[simp] theorem State.record_mem (o : PollOutcome) : (s.record o).mem = s.mem := rfl
@[simp] theorem State.record_rxbuf (o : PollOutcome) : (s.record o).rxbuf = s.rxbuf := rfl
@[simp] theorem State.record_crc (o : PollOutcome) : (s.record o).crc = s.crc := rfl
@[simp] theorem State.record_fsm (o : PollOutcome) : (s.record o).fsm = s.fsm := rfl
@[simp] theorem State.record_latches (o : PollOutcome) : (s.record o).latches = s.latches := rfl
@[simp] theorem State.record_tx (o : PollOutcome) : (s.record o).tx = s.tx := rfl
@[simp] theorem State.record_fault (o : PollOutcome) : (s.record o).fault = s.fault := rfl
@[simp] theorem State.record_polls (o : PollOutcome) : (s.record o).polls = s.polls := rfl
@[simp] theorem State.record_outcomes (o : PollOutcome) : (s.record o).outcomes = s.outcomes ++ [o] := rfl

/-! ### State.latchSid -/

@[simp] theorem State.latchSid_cfg (v : Byte) : (s.latchSid v).cfg = s.cfg := rfl
@[simp] theorem State.latchSid_mem (v : Byte) : (s.latchSid v).mem = s.mem := rfl
@[simp] theorem State.latchSid_rxbuf (v : Byte) : (s.latchSid v).rxbuf = s.rxbuf := rfl
@[simp] theorem State.latchSid_crc (v : Byte) : (s.latchSid v).crc = s.crc := rfl
@[simp] theorem State.latchSid_fsm (v : Byte) : (s.latchSid v).fsm = s.fsm := rfl
@[simp] theorem State.latchSid_latches (v : Byte) : (s.latchSid v).latches = { s.latches with sid := v } := rfl
@[simp] theorem State.latchSid_tx (v : Byte) : (s.latchSid v).tx = s.tx := rfl
@[simp] theorem State.latchSid_fault (v : Byte) : (s.latchSid v).fault = s.fault := rfl
@[simp] theorem State.latchSid_polls (v : Byte) : (s.latchSid v).polls = s.polls := rfl
@[simp] theorem State.latchSid_outcomes (v : Byte) : (s.latchSid v).outcomes = s.outcomes := rfl

/-! ### State.latchPdu -/

@[simp] theorem State.latchPdu_cfg (fc : Byte) (pay : List Byte) : (s.latchPdu fc pay).cfg = s.cfg := rfl
@[simp] theorem State.latchPdu_mem (fc : Byte) (pay : List Byte) : (s.latchPdu fc pay).mem = s.mem := rfl
@[simp] theorem State.latchPdu_rxbuf (fc : Byte) (pay : List Byte) : (s.latchPdu fc pay).rxbuf = s.rxbuf := rfl
@[simp] theorem State.latchPdu_crc (fc : Byte) (pay : List Byte) : (s.latchPdu fc pay).crc = s.crc := rfl
@[simp] theorem State.latchPdu_fsm (fc : Byte) (pay : List Byte) : (s.latchPdu fc pay).fsm = s.fsm := rfl
@[simp] theorem State.latchPdu_latches (fc : Byte) (pay : List Byte) : (s.latchPdu fc pay).latches = { s.latches with fc := fc, pay := pay } := rfl
@[simp] theorem State.latchPdu_tx (fc : Byte) (pay : List Byte) : (s.latchPdu fc pay).tx = s.tx := rfl
@[simp] theorem State.latchPdu_fault (fc : Byte) (pay : List Byte) : (s.latchPdu fc pay).fault = s.fault := rfl
@[simp] theorem State.latchPdu_polls (fc : Byte) (pay : List Byte) : (s.latchPdu fc pay).polls = s.polls := rfl
@[simp] theorem State.latchPdu_outcomes (fc : Byte) (pay : List Byte) : (s.latchPdu fc pay).outcomes = s.outcomes := rfl

/-! ### State.latchHeader -/

@[simp] theorem State.latchHeader_cfg (txn proto lenf : Word) : (s.latchHeader txn proto lenf).cfg = s.cfg := rfl
@[simp] theorem State.latchHeader_mem (txn proto lenf : Word) : (s.latchHeader txn proto lenf).mem = s.mem := rfl
@[simp] theorem State.latchHeader_rxbuf (txn proto lenf : Word) : (s.latchHeader txn proto lenf).rxbuf = s.rxbuf := rfl
@[simp] theorem State.latchHeader_crc (txn proto lenf : Word) : (s.latchHeader txn proto lenf).crc = s.crc := rfl
@[simp] theorem State.latchHeader_fsm (txn proto lenf : Word) : (s.latchHeader txn proto lenf).fsm = s.fsm := rfl
@[simp] theorem State.latchHeader_latches (txn proto lenf : Word) : (s.latchHeader txn proto lenf).latches = { s.latches with txn := txn, proto := proto, lenf := lenf } := rfl
@[simp] theorem State.latchHeader_tx (txn proto lenf : Word) : (s.latchHeader txn proto lenf).tx = s.tx := rfl
@[simp] theorem State.latchHeader_fault (txn proto lenf : Word) : (s.latchHeader txn proto lenf).fault = s.fault := rfl
@[simp] theorem State.latchHeader_polls (txn proto lenf : Word) : (s.latchHeader txn proto lenf).polls = s.polls := rfl
@[simp] theorem State.latchHeader_outcomes (txn proto lenf : Word) : (s.latchHeader txn proto lenf).outcomes = s.outcomes := rfl

/-! ### State.latchOperands -/

@[simp] theorem State.latchOperands_cfg (addr qty : Word) : (s.latchOperands addr qty).cfg = s.cfg := rfl
@[simp] theorem State.latchOperands_mem (addr qty : Word) : (s.latchOperands addr qty).mem = s.mem := rfl
@[simp] theorem State.latchOperands_rxbuf (addr qty : Word) : (s.latchOperands addr qty).rxbuf = s.rxbuf := rfl
@[simp] theorem State.latchOperands_crc (addr qty : Word) : (s.latchOperands addr qty).crc = s.crc := rfl
@[simp] theorem State.latchOperands_fsm (addr qty : Word) : (s.latchOperands addr qty).fsm = s.fsm := rfl
@[simp] theorem State.latchOperands_latches (addr qty : Word) : (s.latchOperands addr qty).latches = { s.latches with addr := addr, qty := qty } := rfl
@[simp] theorem State.latchOperands_tx (addr qty : Word) : (s.latchOperands addr qty).tx = s.tx := rfl
@[simp] theorem State.latchOperands_fault (addr qty : Word) : (s.latchOperands addr qty).fault = s.fault := rfl
@[simp] theorem State.latchOperands_polls (addr qty : Word) : (s.latchOperands addr qty).polls = s.polls := rfl
@[simp] theorem State.latchOperands_outcomes (addr qty : Word) : (s.latchOperands addr qty).outcomes = s.outcomes := rfl

/-! ### State.latchData -/

@[simp] theorem State.latchData_cfg (bc : Byte) (data : List Byte) : (s.latchData bc data).cfg = s.cfg := rfl
@[simp] theorem State.latchData_mem (bc : Byte) (data : List Byte) : (s.latchData bc data).mem = s.mem := rfl
@[simp] theorem State.latchData_rxbuf (bc : Byte) (data : List Byte) : (s.latchData bc data).rxbuf = s.rxbuf := rfl
@[simp] theorem State.latchData_crc (bc : Byte) (data : List Byte) : (s.latchData bc data).crc = s.crc := rfl
@[simp] theorem State.latchData_fsm (bc : Byte) (data : List Byte) : (s.latchData bc data).fsm = s.fsm := rfl
@[simp] theorem State.latchData_latches (bc : Byte) (data : List Byte) : (s.latchData bc data).latches = { s.latches with bc := bc, data := data } := rfl
@[simp] theorem State.latchData_tx (bc : Byte) (data : List Byte) : (s.latchData bc data).tx = s.tx := rfl
@[simp] theorem State.latchData_fault (bc : Byte) (data : List Byte) : (s.latchData bc data).fault = s.fault := rfl
@[simp] theorem State.latchData_polls (bc : Byte) (data : List Byte) : (s.latchData bc data).polls = s.polls := rfl
@[simp] theorem State.latchData_outcomes (bc : Byte) (data : List Byte) : (s.latchData bc data).outcomes = s.outcomes := rfl

/-! ### crcInit -/

@[simp] theorem crcInit_cfg : (crcInit s).cfg = s.cfg := rfl
@[simp] theorem crcInit_mem : (crcInit s).mem = s.mem := rfl
@[simp] theorem crcInit_rxbuf : (crcInit s).rxbuf = s.rxbuf := rfl
@[simp] theorem crcInit_crc : (crcInit s).crc = crcInitValue := rfl
@[simp] theorem crcInit_fsm : (crcInit s).fsm = s.fsm := rfl
@[simp] theorem crcInit_latches : (crcInit s).latches = s.latches := rfl
@[simp] theorem crcInit_tx : (crcInit s).tx = s.tx := rfl
@[simp] theorem crcInit_fault : (crcInit s).fault = s.fault := rfl
@[simp] theorem crcInit_polls : (crcInit s).polls = s.polls := rfl
@[simp] theorem crcInit_outcomes : (crcInit s).outcomes = s.outcomes := rfl

/-! ### crcByte -/

@[simp] theorem crcByte_cfg (b : Byte) : (crcByte b s).cfg = s.cfg := rfl
@[simp] theorem crcByte_mem (b : Byte) : (crcByte b s).mem = s.mem := rfl
@[simp] theorem crcByte_rxbuf (b : Byte) : (crcByte b s).rxbuf = s.rxbuf := rfl
@[simp] theorem crcByte_crc (b : Byte) : (crcByte b s).crc = crcByteUpdate s.crc b := rfl
@[simp] theorem crcByte_fsm (b : Byte) : (crcByte b s).fsm = s.fsm := rfl
@[simp] theorem crcByte_latches (b : Byte) : (crcByte b s).latches = s.latches := rfl
@[simp] theorem crcByte_tx (b : Byte) : (crcByte b s).tx = s.tx := rfl
@[simp] theorem crcByte_fault (b : Byte) : (crcByte b s).fault = s.fault := rfl
@[simp] theorem crcByte_polls (b : Byte) : (crcByte b s).polls = s.polls := rfl
@[simp] theorem crcByte_outcomes (b : Byte) : (crcByte b s).outcomes = s.outcomes := rfl

/-! ### crcBit -/

@[simp] theorem crcBit_cfg (d : Bool) : (crcBit d s).cfg = s.cfg := rfl
@[simp] theorem crcBit_mem (d : Bool) : (crcBit d s).mem = s.mem := rfl
@[simp] theorem crcBit_rxbuf (d : Bool) : (crcBit d s).rxbuf = s.rxbuf := rfl
@[simp] theorem crcBit_crc (d : Bool) : (crcBit d s).crc = crcBitUpdate s.crc d := rfl
@[simp] theorem crcBit_fsm (d : Bool) : (crcBit d s).fsm = s.fsm := rfl
@[simp] theorem crcBit_latches (d : Bool) : (crcBit d s).latches = s.latches := rfl
@[simp] theorem crcBit_tx (d : Bool) : (crcBit d s).tx = s.tx := rfl
@[simp] theorem crcBit_fault (d : Bool) : (crcBit d s).fault = s.fault := rfl
@[simp] theorem crcBit_polls (d : Bool) : (crcBit d s).polls = s.polls := rfl
@[simp] theorem crcBit_outcomes (d : Bool) : (crcBit d s).outcomes = s.outcomes := rfl

/-! ### returnToIdle -/

@[simp] theorem returnToIdle_cfg : (returnToIdle s).cfg = s.cfg := rfl
@[simp] theorem returnToIdle_mem : (returnToIdle s).mem = s.mem := rfl
@[simp] theorem returnToIdle_rxbuf : (returnToIdle s).rxbuf = s.rxbuf := rfl
@[simp] theorem returnToIdle_crc : (returnToIdle s).crc = s.crc := rfl
@[simp] theorem returnToIdle_fsm : (returnToIdle s).fsm = .idle := rfl
@[simp] theorem returnToIdle_latches : (returnToIdle s).latches = s.latches := rfl
@[simp] theorem returnToIdle_tx : (returnToIdle s).tx = s.tx := rfl
@[simp] theorem returnToIdle_fault : (returnToIdle s).fault = s.fault := rfl
@[simp] theorem returnToIdle_polls : (returnToIdle s).polls = s.polls := rfl
@[simp] theorem returnToIdle_outcomes : (returnToIdle s).outcomes = s.outcomes := rfl

/-! ### dropFrame -/

@[simp] theorem dropFrame_cfg : (dropFrame s).cfg = s.cfg := rfl
@[simp] theorem dropFrame_mem : (dropFrame s).mem = s.mem := rfl
@[simp] theorem dropFrame_rxbuf : (dropFrame s).rxbuf = s.rxbuf := rfl
@[simp] theorem dropFrame_crc : (dropFrame s).crc = s.crc := rfl
@[simp] theorem dropFrame_fsm : (dropFrame s).fsm = s.fsm := rfl
@[simp] theorem dropFrame_latches : (dropFrame s).latches = s.latches := rfl
@[simp] theorem dropFrame_tx : (dropFrame s).tx = s.tx := rfl
@[simp] theorem dropFrame_fault : (dropFrame s).fault = s.fault := rfl
@[simp] theorem dropFrame_polls : (dropFrame s).polls = s.polls := rfl
@[simp] theorem dropFrame_outcomes : (dropFrame s).outcomes = s.outcomes ++ [.drop] := rfl

/-! ### discardLatches -/

@[simp] theorem discardLatches_cfg : (discardLatches s).cfg = s.cfg := rfl
@[simp] theorem discardLatches_mem : (discardLatches s).mem = s.mem := rfl
@[simp] theorem discardLatches_rxbuf : (discardLatches s).rxbuf = s.rxbuf := rfl
@[simp] theorem discardLatches_crc : (discardLatches s).crc = s.crc := rfl
@[simp] theorem discardLatches_fsm : (discardLatches s).fsm = s.fsm := rfl
@[simp] theorem discardLatches_latches : (discardLatches s).latches = Latches.unwritten := rfl
@[simp] theorem discardLatches_tx : (discardLatches s).tx = [] := rfl
@[simp] theorem discardLatches_fault : (discardLatches s).fault = s.fault := rfl
@[simp] theorem discardLatches_polls : (discardLatches s).polls = s.polls := rfl
@[simp] theorem discardLatches_outcomes : (discardLatches s).outcomes = s.outcomes := rfl

/-! ### beginOperation -/

@[simp] theorem beginOperation_cfg (c : Fsm) (addr qty : Word) : (beginOperation c addr qty s).cfg = s.cfg := rfl
@[simp] theorem beginOperation_mem (c : Fsm) (addr qty : Word) : (beginOperation c addr qty s).mem = s.mem := rfl
@[simp] theorem beginOperation_rxbuf (c : Fsm) (addr qty : Word) : (beginOperation c addr qty s).rxbuf = s.rxbuf := rfl
@[simp] theorem beginOperation_crc (c : Fsm) (addr qty : Word) : (beginOperation c addr qty s).crc = s.crc := rfl
@[simp] theorem beginOperation_fsm (c : Fsm) (addr qty : Word) : (beginOperation c addr qty s).fsm = c := rfl
@[simp] theorem beginOperation_latches (c : Fsm) (addr qty : Word) : (beginOperation c addr qty s).latches = { s.latches with addr := addr, qty := qty } := rfl
@[simp] theorem beginOperation_tx (c : Fsm) (addr qty : Word) : (beginOperation c addr qty s).tx = s.tx := rfl
@[simp] theorem beginOperation_fault (c : Fsm) (addr qty : Word) : (beginOperation c addr qty s).fault = s.fault := rfl
@[simp] theorem beginOperation_polls (c : Fsm) (addr qty : Word) : (beginOperation c addr qty s).polls = s.polls := rfl
@[simp] theorem beginOperation_outcomes (c : Fsm) (addr qty : Word) : (beginOperation c addr qty s).outcomes = s.outcomes := rfl

end Sys2Proof.Machine
end

