-- ==== Sys2Proof/Laws/Memory.lean ====
section
/-!
SUPPORT. The table access: what MemRead and MemWrite can do, and that every memory operation keeps Memory.wf.
-/
namespace Sys2Proof.Machine

@[simp] theorem cells_setCells_same (m : Memory) (k : TableKind) (v : List k.Cell) : (m.setCells k v).cells k = v := by
  cases k <;> rfl

@[simp] theorem cells_setCells_other (m : Memory) {k k' : TableKind} (h : k' ≠ k) (v : List k.Cell) :
    (m.setCells k v).cells k' = m.cells k' := by
  cases k <;> cases k' <;> first | rfl | exact absurd rfl h

/-- Writing the cells a table already has changes nothing. -/
@[simp] theorem setCells_cells (m : Memory) (k : TableKind) : m.setCells k (m.cells k) = m := by
  cases k <;> rfl

/-- The memory's form, table by table. -/
theorem wf_iff (m : Memory) (c : Config) : m.wf c = true ↔ ∀ k, (m.cells k).length = (c.shape k).len := by
  constructor
  · intro h k
    simp [Memory.wf] at h
    cases k <;> simp [Memory.cells, Config.shape, h]
  · intro h
    have h1 := h .coil
    have h2 := h .disc
    have h3 := h .hold
    have h4 := h .input
    simp [Memory.cells, Config.shape] at h1 h2 h3 h4
    simp [Memory.wf, h1, h2, h3, h4]

@[simp] theorem length_writeCells {α : Type} (cells : List α) (i : Nat) (vs : List α) :
    (writeCells cells i vs).length = cells.length := by
  induction vs generalizing cells i with
  | nil => rfl
  | cons v vs ih => simp [writeCells, ih]

/-- A cell outside the written range keeps its value. -/
theorem getElem?_writeCells_outside {α : Type} (cells : List α) (i j : Nat) (vs : List α)
    (h : j < i ∨ i + vs.length ≤ j) : (writeCells cells i vs)[j]? = cells[j]? := by
  induction vs generalizing cells i with
  | nil => rfl
  | cons v vs ih =>
    simp only [List.length_cons] at h
    rw [writeCells, ih _ _ (by omega), List.getElem?_set_ne (by omega)]

/-- A cell inside the written range holds its value of the list. -/
theorem getElem?_writeCells_inside {α : Type} (cells : List α) (i j : Nat) (vs : List α) (hj : j < vs.length)
    (hc : i + vs.length ≤ cells.length) : (writeCells cells i vs)[i + j]? = vs[j]? := by
  induction vs generalizing cells i j with
  | nil => simp at hj
  | cons v vs ih =>
    simp only [List.length_cons] at hj hc
    cases j with
    | zero =>
      rw [writeCells, getElem?_writeCells_outside _ _ _ _ (by omega)]
      rw [Nat.add_zero, List.getElem?_set_self (by omega)]
      rfl
    | succ j =>
      have := ih (cells.set i v) (i + 1) j (by omega) (by simp; omega)
      rw [writeCells, show i + (j + 1) = i + 1 + j by omega, this]
      rfl

/-- The validator's answer as arithmetic. -/
theorem validate_iff (c : Config) (k : TableKind) (addr n : Nat) : validate c k addr n = true ↔ InRange c k addr n := by
  simp [validate, InRange]

theorem validate_eq_false_iff (c : Config) (k : TableKind) (addr n : Nat) :
    validate c k addr n = false ↔ ¬ InRange c k addr n := by
  rw [← validate_iff]
  simp

/-- A range the validator accepts is read. -/
theorem memRead_of_inRange {k : TableKind} {addr n : Nat} {s : State} (h : InRange s.cfg k addr n) :
    memRead k addr n s = .ok (((s.mem.cells k).drop (cellIndex s.cfg k addr)).take n) := by
  rw [memRead, (validate_iff _ _ _ _).mpr h]
  rfl

/-- A range the validator accepts is written. -/
theorem memWrite_of_inRange {k : TableKind} {addr : Nat} {vs : List k.Cell} {s : State}
    (h : InRange s.cfg k addr vs.length) :
    memWrite k addr vs s =
      .ok (s.setMem (s.mem.setCells k (writeCells (s.mem.cells k) (cellIndex s.cfg k addr) vs))) := by
  rw [memWrite, (validate_iff _ _ _ _).mpr h]
  rfl

/-- All a successful write can do: it replaces the cells of one table, keeping their number. -/
theorem memWrite_cases {k : TableKind} {addr : Nat} {vs : List k.Cell} {s t : State} (h : memWrite k addr vs s = .ok t) :
    InRange s.cfg k addr vs.length ∧
      t = s.setMem (s.mem.setCells k (writeCells (s.mem.cells k) (cellIndex s.cfg k addr) vs)) := by
  rw [memWrite] at h
  split at h
  · next hv => exact ⟨(validate_iff _ _ _ _).mp hv, by cases h; rfl⟩
  · cases h

/-- Replacing the cells of a table by as many keeps the memory's form. -/
theorem setCells_keeps_wf {m : Memory} {c : Config} {k : TableKind} {v : List k.Cell} (h : m.wf c = true)
    (hv : v.length = (m.cells k).length) : (m.setCells k v).wf c = true := by
  rw [wf_iff] at h ⊢
  intro k'
  by_cases hk : k' = k
  · subst hk; simp [hv, h]
  · simp [cells_setCells_other m hk, h]

/-- Every write keeps the memory's form. -/
theorem memWrite_keeps_wf {k : TableKind} {addr : Nat} {vs : List k.Cell} {s t : State} (h : memWrite k addr vs s = .ok t)
    (hwf : s.mem.wf s.cfg = true) : t.mem.wf t.cfg = true := by
  obtain ⟨-, rfl⟩ := memWrite_cases h
  exact setCells_keeps_wf hwf (by simp)

/-- The memory has its form after every reset. -/
theorem resetWith_mem_wf (p : Params) : (State.resetWith p).mem.wf (State.resetWith p).cfg = true := by
  simp [State.resetWith, Memory.wf]

end Sys2Proof.Machine
end

