-- ==== Sys2Proof/Laws/Ops.lean ====
section
/-!
SUPPORT. One lemma for each shared operation, saying once everything it can do: the CRC computation, the response builder,
taking an exception, the handlers' shapes and the end of a handler.
-/
namespace Sys2Proof.Machine

/-- A computation touches the CRC register alone and leaves CRC16 in it. -/
theorem crcCompute_eq (b : List Byte) (s : State) : crcCompute b s = s.setCrc (crc16 b) := by
  have h : ∀ (b : List Byte) (t : State), b.foldl (fun t x => crcByte x t) t = t.setCrc (b.foldl crcByteUpdate t.crc) := by
    intro b
    induction b with
    | nil => intro t; rfl
    | cons x b ih => intro t; rw [List.foldl_cons, ih]; rfl
  rw [crcCompute, h]
  rfl

/-- The trailer check compares the trailer with the CRC of the rest. -/
theorem serialCrcOk_eq (f : List Byte) (s : State) :
    serialCrcOk f s =
      (crc16 (f.take (f.length - 2)) == wordOf (f.getD (f.length - 1) 0) (f.getD (f.length - 2) 0)) := by
  rw [serialCrcOk, serialChecked, crcCompute_eq]
  rfl

/-- The response builder and the emission, whole. -/
theorem returnToIdle_respond (fcr : Byte) (p : List Byte) (s : State) :
    returnToIdle (respond fcr p s) = answered s s.mem s.latches fcr p := by
  cases h : s.cfg.transport
  · simp [respond, buildTx, h, crcCompute_eq, returnToIdle, State.enter, State.setTx, State.setCrc, State.record,
      answered, responseFrame, crcAfter, crcOut]
  · simp [respond, buildTx, h, returnToIdle, State.enter, State.setTx, State.record, answered, responseFrame, crcAfter]

/-- An answer looks at the configuration, the latches' SID and TXN, the CRC register and the outcomes alone, and the state
it leaves holds the data bank and the latches it is given. -/
theorem answered_answered_parts (s : State) (m : Memory) (l : Latches) (fcr : Byte) (p : List Byte) :
    (answered s m l fcr p).cfg = s.cfg ∧ (answered s m l fcr p).mem = m ∧ (answered s m l fcr p).latches = l ∧
      (answered s m l fcr p).rxbuf = s.rxbuf ∧ (answered s m l fcr p).fault = s.fault ∧
      (answered s m l fcr p).polls = s.polls ∧ (answered s m l fcr p).fsm = .idle :=
  ⟨rfl, rfl, rfl, rfl, rfl, rfl, rfl⟩

/-- A success: the payload of the reply. -/
theorem conclude_reply (fc : Byte) (r : Reply) (s : State) :
    conclude fc (.reply r s) = answered s s.mem s.latches fc (replyPayload s.latches r) :=
  returnToIdle_respond _ _ _

/-- An exception, and the return from it: the biased function code and the code. -/
theorem conclude_exception (fc : Byte) (c : ExceptionCode) (s : State) :
    conclude fc (.exception c s) = answered s s.mem s.latches (exceptionFc fc) [exceptionByte c] :=
  returnToIdle_respond _ _ _

/-- The answer to a request that was begun: begun fields drop out. -/
theorem answered_of_begun (c : Fsm) (addr qty : Word) (s : State) (m : Memory) (l : Latches) (fcr : Byte) (p : List Byte) :
    answered (beginOperation c addr qty s) m l fcr p = answered s m l fcr p := rfl

/-- All a read can do. -/
theorem readTable_eq (k : TableKind) (pack : List k.Cell → List Byte) (n : Nat) (addr qty : Word) (s : State) :
    readTable k pack n addr qty s =
      if ¬ InRange s.cfg k addr.toNat qty.toNat then .exception .illegalDataAddress s
      else if 255 < n then .exception .illegalDataValue s
      else .reply (.readResult (pack (((s.mem.cells k).drop (cellIndex s.cfg k addr.toNat)).take qty.toNat))) s := by
  rw [readTable]
  by_cases h : InRange s.cfg k addr.toNat qty.toNat
  · rw [if_neg (by rw [validate_eq_false_iff]; exact not_not.mpr h), if_neg (not_not.mpr h), memRead_of_inRange h]
    rfl
  · rw [if_pos ((validate_eq_false_iff _ _ _ _).mpr h), if_pos h]

/-- All a single write can do. -/
theorem writeSingle_eq (k : TableKind) (addr : Word) (v : Option k.Cell) (s : State) :
    writeSingle k addr v s =
      if ¬ InRange s.cfg k addr.toNat 1 then .exception .illegalDataAddress s
      else
        match v with
        | none => .exception .illegalDataValue s
        | some v =>
          .reply .singleWriteAck
            (s.setMem (s.mem.setCells k ((s.mem.cells k).set (cellIndex s.cfg k addr.toNat) v))) := by
  rw [writeSingle.eq_def]
  by_cases h : InRange s.cfg k addr.toNat 1
  · rw [if_neg (by rw [validate_eq_false_iff]; exact not_not.mpr h), if_neg (not_not.mpr h)]
    cases v with
    | none => rfl
    | some v =>
      have hw : memWrite k addr.toNat [v] s =
          .ok (s.setMem (s.mem.setCells k ((s.mem.cells k).set (cellIndex s.cfg k addr.toNat) v))) :=
        memWrite_of_inRange (vs := [v]) h
      simp only [hw]
  · rw [if_pos ((validate_eq_false_iff _ _ _ _).mpr h), if_pos h]

/-- All a multiple write can do, for an unpacking that gives as many cells as it is asked for. -/
theorem writeMultiple_eq (k : TableKind) (unpack : List Byte → Nat → Option (List k.Cell)) (addr qty : Word) (bc : Byte)
    (data : List Byte) (s : State) (hu : ∀ d n vs, unpack d n = some vs → vs.length = n) :
    writeMultiple k unpack addr qty bc data s =
      if ¬ InRange s.cfg k addr.toNat qty.toNat then .exception .illegalDataAddress s
      else
        match unpack data qty.toNat with
        | none => .exception .illegalDataValue (s.latchData bc data)
        | some vs =>
          .reply .multiWriteAck
            ((s.latchData bc data).setMem
              (s.mem.setCells k (writeCells (s.mem.cells k) (cellIndex s.cfg k addr.toNat) vs))) := by
  rw [writeMultiple]
  by_cases h : InRange s.cfg k addr.toNat qty.toNat
  · rw [if_neg (by rw [validate_eq_false_iff]; exact not_not.mpr h), if_neg (not_not.mpr h)]
    cases hd : unpack data qty.toNat with
    | none => rfl
    | some vs =>
      have hv : InRange (s.latchData bc data).cfg k addr.toNat vs.length := by rw [hu _ _ _ hd]; exact h
      have hw := memWrite_of_inRange hv
      simp only [hw]
      rfl
  · rw [if_pos ((validate_eq_false_iff _ _ _ _).mpr h), if_pos h]

/-! ### The class a handler runs in -/

/-- The class, the dispatch and the operands touch FSM and the latches alone. -/
theorem beginOperation_eq (c : Fsm) (addr qty : Word) (s : State) :
    beginOperation c addr qty s = { s with fsm := c, latches := { s.latches with addr := addr, qty := qty } } := rfl

/-- A read leaves the state it was given. -/
theorem state_readTable (k : TableKind) (pack : List k.Cell → List Byte) (n : Nat) (addr qty : Word) (s : State) :
    (readTable k pack n addr qty s).state = s := by
  rw [readTable_eq]
  split
  · rfl
  · split <;> rfl

/-- A single write leaves all but the data bank. -/
theorem state_writeSingle (k : TableKind) (addr : Word) (v : Option k.Cell) (s : State) :
    ∃ m, (writeSingle k addr v s).state = s.setMem m := by
  rw [writeSingle_eq]
  split
  · exact ⟨s.mem, rfl⟩
  · cases v with
    | none => exact ⟨s.mem, rfl⟩
    | some v => exact ⟨_, rfl⟩

/-- A multiple write leaves all but the data bank and the latches. -/
theorem state_writeMultiple (k : TableKind) (unpack : List Byte → Nat → Option (List k.Cell)) (addr qty : Word)
    (bc : Byte) (data : List Byte) (s : State) (hu : ∀ d n vs, unpack d n = some vs → vs.length = n) :
    ∃ m l, (writeMultiple k unpack addr qty bc data s).state = (s.setMem m).setLatches l := by
  rw [writeMultiple_eq k unpack addr qty bc data s hu]
  split
  · exact ⟨s.mem, s.latches, rfl⟩
  · cases unpack data qty.toNat with
    | none => exact ⟨s.mem, _, rfl⟩
    | some vs => exact ⟨_, _, rfl⟩

/-! ### The three ends of each shape, as premises -/

theorem readTable_outside {k : TableKind} {addr qty : Word} {s : State} (h : ¬ InRange s.cfg k addr.toNat qty.toNat)
    (pack : List k.Cell → List Byte) (n : Nat) :
    readTable k pack n addr qty s = .exception .illegalDataAddress s := by
  rw [readTable_eq, if_pos h]

theorem readTable_oversized {k : TableKind} {addr qty : Word} {s : State} {n : Nat}
    (h : InRange s.cfg k addr.toNat qty.toNat) (hn : 255 < n) (pack : List k.Cell → List Byte) :
    readTable k pack n addr qty s = .exception .illegalDataValue s := by
  rw [readTable_eq, if_neg (not_not.mpr h), if_pos hn]

theorem readTable_success {k : TableKind} {addr qty : Word} {s : State} {n : Nat}
    (h : InRange s.cfg k addr.toNat qty.toNat) (hn : n ≤ 255) (pack : List k.Cell → List Byte) :
    readTable k pack n addr qty s =
      .reply (.readResult (pack (((s.mem.cells k).drop (cellIndex s.cfg k addr.toNat)).take qty.toNat))) s := by
  rw [readTable_eq, if_neg (not_not.mpr h), if_neg (by omega)]

theorem writeSingle_outside {k : TableKind} {addr : Word} {s : State} (h : ¬ InRange s.cfg k addr.toNat 1)
    (v : Option k.Cell) : writeSingle k addr v s = .exception .illegalDataAddress s := by
  rw [writeSingle_eq, if_pos h]

theorem writeSingle_illegal {k : TableKind} {addr : Word} {s : State} (h : InRange s.cfg k addr.toNat 1) :
    writeSingle k addr none s = .exception .illegalDataValue s := by
  rw [writeSingle_eq, if_neg (not_not.mpr h)]

theorem writeSingle_success {k : TableKind} {addr : Word} {s : State} (h : InRange s.cfg k addr.toNat 1) (v : k.Cell) :
    writeSingle k addr (some v) s =
      .reply .singleWriteAck
        (s.setMem (s.mem.setCells k ((s.mem.cells k).set (cellIndex s.cfg k addr.toNat) v))) := by
  rw [writeSingle_eq, if_neg (not_not.mpr h)]

theorem writeMultiple_outside {k : TableKind} {addr qty : Word} {s : State}
    (h : ¬ InRange s.cfg k addr.toNat qty.toNat) (unpack : List Byte → Nat → Option (List k.Cell)) (bc : Byte)
    (data : List Byte) : writeMultiple k unpack addr qty bc data s = .exception .illegalDataAddress s := by
  rw [writeMultiple, if_pos ((validate_eq_false_iff _ _ _ _).mpr h)]

theorem writeMultiple_short {k : TableKind} {unpack : List Byte → Nat → Option (List k.Cell)} {addr qty : Word}
    {data : List Byte} {s : State} (h : InRange s.cfg k addr.toNat qty.toNat) (hd : unpack data qty.toNat = none)
    (bc : Byte) :
    writeMultiple k unpack addr qty bc data s = .exception .illegalDataValue (s.latchData bc data) := by
  rw [writeMultiple, if_neg (by rw [validate_eq_false_iff]; exact not_not.mpr h)]
  simp only [hd]

theorem writeMultiple_success {k : TableKind} {unpack : List Byte → Nat → Option (List k.Cell)} {addr qty : Word}
    {data : List Byte} {vs : List k.Cell} {s : State} (h : InRange s.cfg k addr.toNat qty.toNat)
    (hd : unpack data qty.toNat = some vs) (hl : vs.length = qty.toNat) (bc : Byte) :
    writeMultiple k unpack addr qty bc data s =
      .reply .multiWriteAck
        ((s.latchData bc data).setMem
          (s.mem.setCells k (writeCells (s.mem.cells k) (cellIndex s.cfg k addr.toNat) vs))) := by
  rw [writeMultiple, if_neg (by rw [validate_eq_false_iff]; exact not_not.mpr h)]
  have hv : InRange (s.latchData bc data).cfg k addr.toNat vs.length := by rw [hl]; exact h
  simp only [hd, memWrite_of_inRange hv]
  rfl

end Sys2Proof.Machine
end

