-- ==== Sys2Proof/Laws/Codec.lean ====
section
/-!
SUPPORT. What the receive side and the step can do, said once.
-/
namespace Sys2Proof.Machine

/-- A PDU that decodes runs its instruction. -/
theorem dispatchPdu_of_decode {s : State} {i : Instr} (h : decode (s.latches.fc :: s.latches.pay) = .ok i) :
    dispatchPdu s = exec i s := by
  rw [dispatchPdu, h]

/-- A PDU that does not decode is dropped with FSM back in Idle. -/
theorem dispatchPdu_of_error {s : State} {e : DecodeError} (h : decode (s.latches.fc :: s.latches.pay) = .error e) :
    dispatchPdu s = .next (dropFrame (s.enter .idle)) := by
  rw [dispatchPdu, h]
  rfl

/-- All a serial poll can do: retain, drop for a bad CRC, drop for another server id, or dispatch. -/
theorem serialPoll_eq (chunk : List Byte) (s : State) :
    serialPoll chunk s =
      if (s.rxbuf ++ chunk).length < 8 then .next ((s.setRxbuf (s.rxbuf ++ chunk)).record .retain)
      else serialFrame (s.rxbuf ++ chunk) (s.setRxbuf []) := rfl

/-- All a serial frame can do. -/
theorem serialFrame_eq (f : List Byte) (s : State) :
    serialFrame f s =
      if crc16 (f.take (f.length - 2)) ≠ wordOf (f.getD (f.length - 1) 0) (f.getD (f.length - 2) 0) then
        .next (dropFrame (s.setCrc (crc16 (f.take (f.length - 2)))))
      else if f.getD 0 0 ≠ s.cfg.serverId then
        .next (dropFrame ((s.setCrc (crc16 (f.take (f.length - 2)))).latchSid (f.getD 0 0)))
      else dispatchPdu (serialAccepted f s) := by
  rw [serialFrame, serialCrcOk_eq, serialChecked, crcCompute_eq]
  simp

/-- The step on a waiting poll. -/
theorem step_of_poll {s : State} {chunk : List Byte} {rest : List (List Byte)} (hf : s.fault = false)
    (hp : s.polls = chunk :: rest) :
    step s =
      endPoll (handlePoll (received s.cfg.transport chunk) (s.setPolls (pollsLeft s.cfg.transport chunk rest))) := by
  rw [step, hf, hp]
  rfl

/-- The step with FAULT = 1. -/
theorem step_of_fault {s : State} (hf : s.fault = true) : step s = .fault .contractStuck := by
  rw [step, hf]
  rfl

/-- All a step can do when it answers a next state: hold the state when no poll waits, or handle one poll to a next state and
discard its latches. -/
theorem step_cases {s t : State} (h : step s = .next t) :
    s.fault = false ∧
      ((s.polls = [] ∧ t = s) ∨
        ∃ chunk rest u, s.polls = chunk :: rest ∧
          handlePoll (received s.cfg.transport chunk) (s.setPolls (pollsLeft s.cfg.transport chunk rest)) = .next u ∧
          t = discardLatches u) := by
  rw [step] at h
  split at h
  · cases h
  · next hf =>
    refine ⟨by simpa using hf, ?_⟩
    split at h
    · next hp => cases h; exact .inl ⟨hp, rfl⟩
    · next chunk rest hp =>
      refine .inr ⟨chunk, rest, ?_⟩
      cases hu : handlePoll (received s.cfg.transport chunk) (s.setPolls (pollsLeft s.cfg.transport chunk rest)) with
      | next u => rw [hu] at h; cases h; exact ⟨u, hp, rfl, rfl⟩
      | fault r => rw [hu] at h; cases h
      | refused r => rw [hu] at h; cases h

end Sys2Proof.Machine
end

