-- ==== Sys2Proof/Laws/PerInstr.lean ====
section
/-!
SUPPORT. A family of statements made instruction by instruction, about the instruction as syntax: the shape of its encoding
(30_encoding.md R55 to R58).
-/
namespace Sys2Proof.Laws.EncodeShape

/-- The encoding starts with the function code; a supported code's encoding is at least five bytes long (function code, address,
count or value). -/
def Statement (i : Instr) : Prop :=
  (encode i).head? = some (functionCode i) ∧ (isSupported (functionCode i) = true → i.wellFormed = true → 5 ≤ (encode i).length)

theorem readCoils (addr qty : Word) : Statement (.readCoils addr qty) := ⟨rfl, fun _ _ => Nat.le_refl 5⟩

theorem readDiscreteInputs (addr qty : Word) : Statement (.readDiscreteInputs addr qty) := ⟨rfl, fun _ _ => Nat.le_refl 5⟩

theorem readHoldingRegisters (addr qty : Word) : Statement (.readHoldingRegisters addr qty) :=
  ⟨rfl, fun _ _ => Nat.le_refl 5⟩

theorem readInputRegisters (addr qty : Word) : Statement (.readInputRegisters addr qty) := ⟨rfl, fun _ _ => Nat.le_refl 5⟩

theorem writeSingleCoil (addr value : Word) : Statement (.writeSingleCoil addr value) := ⟨rfl, fun _ _ => Nat.le_refl 5⟩

theorem writeSingleRegister (addr value : Word) : Statement (.writeSingleRegister addr value) :=
  ⟨rfl, fun _ _ => Nat.le_refl 5⟩

theorem writeMultipleCoils (addr qty : Word) (bc : Byte) (data : List Byte) :
    Statement (.writeMultipleCoils addr qty bc data) :=
  ⟨rfl, fun _ _ => by simp [encode, requestPayload]; omega⟩

theorem writeMultipleRegisters (addr qty : Word) (bc : Byte) (data : List Byte) :
    Statement (.writeMultipleRegisters addr qty bc data) :=
  ⟨rfl, fun _ _ => by simp [encode, requestPayload]; omega⟩

theorem unsupported (fc : Byte) : Statement (.unsupported fc) :=
  ⟨rfl, fun h hw => by simp [functionCode, Instr.wellFormed] at h hw; simp [h] at hw⟩

end Sys2Proof.Laws.EncodeShape
end

