-- ==== Sys2Proof/Tests/Slice0.lean ====
section
/-!
SUPPORT. The model's own tests: what WellFormed refuses, the decoding of PDUs written out from 30_encoding.md and
95_test_vectors.md, one poll of each instruction against a vector of 95_test_vectors.md, and for each statement that has
hypotheses a witness that meets them.
-/
namespace Sys2Proof.Tests

open Sys2Proof.Machine

/-! ### Helpers -/

/-- The parameters with the socket transport (configuration SC of 95_test_vectors.md). -/
def socketParams : Params :=
  { Params.standard with config := { Params.standard.config with transport := .socket } }

/-- The configuration BIG of 95_test_vectors.md, on transport t. -/
def bigParams (t : Transport) : Params :=
  { Params.standard with
    config :=
      { Params.standard.config with
        transport := t
        coil := { base := 0, len := 2048 }
        disc := { base := 0, len := 2048 }
        hold := { base := 0, len := 200 }
        input := { base := 0, len := 200 } }
    initCoil := []
    initHold := List.replicate 200 7 }

/-- After a reset with SC, serial, with these polls to come. -/
def serialWith (polls : List (List Byte)) : State := { State.reset with polls := polls }

/-- After a reset with SC, socket, with these polls to come. -/
def socketWith (polls : List (List Byte)) : State := { State.resetWith socketParams with polls := polls }

/-- After a reset with BIG, with these polls to come. -/
def bigWith (t : Transport) (polls : List (List Byte)) : State :=
  { State.resetWith (bigParams t) with polls := polls }

/-- The outcome is a next state with property p. -/
def answersWith (o : Host.Outcome State Fault Refusal) (p : State → Bool) : Bool :=
  match o with
  | .next t => p t
  | _ => false

theorem exists_of_answersWith {o : Host.Outcome State Fault Refusal} {p : State → Bool}
    (h : answersWith o p = true) : ∃ t, o = .next t ∧ p t = true := by
  cases o with
  | next t => exact ⟨t, rfl, h⟩
  | fault r => simp [answersWith] at h
  | refused r => simp [answersWith] at h

/-- The PDU p decodes to i. -/
def decodesTo (p : List Byte) (i : Instr) : Bool :=
  match decode p with
  | .ok j => j == i
  | .error _ => false

theorem decode_eq_of_decodesTo {p : List Byte} {i : Instr} (h : decodesTo p i = true) : decode p = .ok i := by
  unfold decodesTo at h
  split at h
  · rename_i j hj
    rw [hj, eq_of_beq h]
  · cases h

/-- The next state's outcomes are the state's own and then o, and its tables are m. -/
def endsIn (s : State) (o : PollOutcome) (m : Memory) : Bool :=
  answersWith (step s) fun t => t.outcomes == s.outcomes ++ [o] && t.mem == m

/-- SC's tables with coil i set to v. -/
def coilSet (i : Nat) (v : Bool) : Memory := { State.reset.mem with coil := State.reset.mem.coil.set i v }

/-- SC's tables with holding register i set to v. -/
def holdSet (i : Nat) (v : Word) : Memory := { State.reset.mem with hold := State.reset.mem.hold.set i v }

/-! ### WellFormed: an ill-formed term for each check -/

theorem test_wellFormed_refuses_unsupported_supported_code : (Instr.unsupported 0x01).wellFormed = false := by decide

theorem test_wellFormed_refuses_coil_data_past_byte_count :
    (Instr.writeMultipleCoils 100 8 1 [0xCD, 0x01]).wellFormed = false := by decide

theorem test_wellFormed_refuses_register_data_past_byte_count :
    (Instr.writeMultipleRegisters 200 1 1 [0x12, 0x34]).wellFormed = false := by decide

/-! ### Decoding: one PDU per constructor, written out from 30_encoding.md R56 to R58 and R62 -/

theorem test_decode_readCoils : decode [0x01, 0x00, 0x64, 0x00, 0x0A] = .ok (.readCoils 100 10) := rfl

theorem test_decode_readDiscreteInputs :
    decode [0x02, 0xFF, 0xFF, 0x00, 0x02] = .ok (.readDiscreteInputs 0xFFFF 2) := rfl

theorem test_decode_readHoldingRegisters :
    decode [0x03, 0x01, 0x2B, 0x00, 0x01] = .ok (.readHoldingRegisters 299 1) := rfl

theorem test_decode_readInputRegisters :
    decode [0x04, 0x00, 0x06, 0x00, 0x02] = .ok (.readInputRegisters 6 2) := rfl

theorem test_decode_writeSingleCoil :
    decode [0x05, 0x00, 0x65, 0x12, 0x34] = .ok (.writeSingleCoil 101 0x1234) := rfl

theorem test_decode_writeSingleRegister :
    decode [0x06, 0x01, 0x2B, 0xBE, 0xEF] = .ok (.writeSingleRegister 299 0xBEEF) := rfl

theorem test_decode_writeMultipleCoils :
    decode [0x0F, 0x00, 0x66, 0x00, 0x04, 0x01, 0x0A] = .ok (.writeMultipleCoils 102 4 1 [0x0A]) := rfl

theorem test_decode_writeMultipleRegisters :
    decode [0x10, 0x00, 0xC9, 0x00, 0x02, 0x04, 0x12, 0x34, 0xAB, 0xCD] =
      .ok (.writeMultipleRegisters 201 2 4 [0x12, 0x34, 0xAB, 0xCD]) := rfl

theorem test_decode_unsupported : decode [0x07] = .ok (.unsupported 0x07) := rfl

/-- R58: a payload of four bytes has BC = 0 and no DATA. -/
theorem test_decode_no_byte_count : decode [0x0F, 0x00, 0x64, 0x00, 0x01] = .ok (.writeMultipleCoils 100 1 0 []) := rfl

/-- R115: three payload bytes are too few for a supported code. -/
theorem test_decode_short : decode [0x06, 0x00, 0xC8, 0x00] = .error .shortPayload := rfl

/-! ### One poll of each instruction, from 95_test_vectors.md -/

/-- V-FC1-4: nine coils, the last byte padded with zeros. -/
theorem test_readCoils :
    endsIn (serialWith [[0x11, 0x01, 0x00, 0x64, 0x00, 0x09, 0xBF, 0x43]])
      (.emit [0x11, 0x01, 0x02, 0xCD, 0x01, 0xED, 0x6F]) State.reset.mem = true := by decide +kernel

/-- V-FC1-6: one coil past the end. -/
theorem test_readCoils_past_end :
    endsIn (serialWith [[0x11, 0x01, 0x00, 0x6E, 0x00, 0x01, 0x9E, 0x87]])
      (.emit [0x11, 0x81, 0x02, 0xC0, 0x54]) State.reset.mem = true := by decide +kernel

/-- V-FC2-2. -/
theorem test_readDiscreteInputs :
    endsIn (serialWith [[0x11, 0x02, 0x00, 0x04, 0x00, 0x05, 0xFB, 0x58]])
      (.emit [0x11, 0x02, 0x01, 0x05, 0x65, 0x4B]) State.reset.mem = true := by decide +kernel

/-- V-FC3-1, which is W4 of the source. -/
theorem test_readHoldingRegisters :
    endsIn (serialWith [[0x11, 0x03, 0x00, 0xC8, 0x00, 0x05, 0x06, 0xA7]])
      (.emit [0x11, 0x03, 0x0A, 0x00, 0x2A, 0x00, 0x2A, 0x00, 0x2A, 0x00, 0x2A, 0x00, 0x2A, 0xCF, 0x54])
      State.reset.mem = true := by decide +kernel

/-- V-LIM-2: 128 registers do not fit the byte count. -/
theorem test_readHoldingRegisters_too_many :
    endsIn (bigWith .serial [[0x11, 0x03, 0x00, 0x00, 0x00, 0x80, 0x46, 0xFA]])
      (.emit [0x11, 0x83, 0x03, 0x00, 0xF4]) (State.resetWith (bigParams .serial)).mem = true := by decide +kernel

/-- V-FC4-1. -/
theorem test_readInputRegisters :
    endsIn (serialWith [[0x11, 0x04, 0x00, 0x06, 0x00, 0x02, 0x93, 0x5A]])
      (.emit [0x11, 0x04, 0x04, 0x10, 0x06, 0x10, 0x07, 0x42, 0x86]) State.reset.mem = true := by decide +kernel

/-- V-FC5-1: the echo, and coil 1 becomes 1. -/
theorem test_writeSingleCoil :
    endsIn (serialWith [[0x11, 0x05, 0x00, 0x65, 0xFF, 0x00, 0x9E, 0xB5]])
      (.emit [0x11, 0x05, 0x00, 0x65, 0xFF, 0x00, 0x9E, 0xB5]) (coilSet 1 true) = true := by decide +kernel

/-- V-FC5-8: the address is checked before the value. -/
theorem test_writeSingleCoil_address_before_value :
    endsIn (serialWith [[0x11, 0x05, 0x00, 0x6E, 0x12, 0x34, 0xA3, 0xF0]])
      (.emit [0x11, 0x85, 0x02, 0xC2, 0x94]) State.reset.mem = true := by decide +kernel

/-- V-FC6-1: the last register. -/
theorem test_writeSingleRegister :
    endsIn (serialWith [[0x11, 0x06, 0x01, 0x2B, 0xBE, 0xEF, 0xCA, 0x82]])
      (.emit [0x11, 0x06, 0x01, 0x2B, 0xBE, 0xEF, 0xCA, 0x82]) (holdSet 99 0xBEEF) = true := by decide +kernel

/-- R128, worked example: coils 2 to 5 become 0, 1, 0, 1. -/
theorem test_writeMultipleCoils :
    endsIn (serialWith [[0x11, 0x0F, 0x00, 0x66, 0x00, 0x04, 0x01, 0x0A, 0xB7, 0x95]])
      (.emit [0x11, 0x0F, 0x00, 0x66, 0x00, 0x04, 0xB6, 0x87])
      { State.reset.mem with coil := [true, false, false, true, false, true, true, true, true, false] } = true := by
  decide +kernel

/-- R129, worked example: registers 1 and 2 become 0x1234 and 0xABCD. -/
theorem test_writeMultipleRegisters :
    endsIn (serialWith [[0x11, 0x10, 0x00, 0xC9, 0x00, 0x02, 0x04, 0x12, 0x34, 0xAB, 0xCD, 0x91, 0x46]])
      (.emit [0x11, 0x10, 0x00, 0xC9, 0x00, 0x02, 0x93, 0x66])
      { State.reset.mem with hold := 42 :: 0x1234 :: 0xABCD :: List.replicate 97 42 } = true := by decide +kernel

/-- R130, worked example. -/
theorem test_unsupported :
    endsIn (serialWith [[0x11, 0x07, 0x00, 0x00, 0x00, 0x00, 0xB6, 0x9A]])
      (.emit [0x11, 0x87, 0x01, 0x83, 0xF5]) State.reset.mem = true := by decide +kernel

/-- W4 on a socket. -/
theorem test_socket_read :
    endsIn (socketWith [[0x00, 0x01, 0x00, 0x00, 0x00, 0x06, 0x11, 0x03, 0x00, 0xC8, 0x00, 0x05]])
      (.emit
        [0x00, 0x01, 0x00, 0x00, 0x00, 0x0D, 0x11, 0x03, 0x0A, 0x00, 0x2A, 0x00, 0x2A, 0x00, 0x2A, 0x00, 0x2A, 0x00,
          0x2A])
      State.reset.mem = true := by decide +kernel

/-! ### Witnesses: states and operands that meet the hypotheses of the statements, each clause at the edge of its range -/

/-- V-DROP-1: a good serial read of one holding register. -/
def goodRead : List Byte := [0x11, 0x03, 0x00, 0xC8, 0x00, 0x01, 0x07, 0x64]

/-- V-DROP-2: its trailer's high byte changed. -/
def badCrc : List Byte := [0x11, 0x03, 0x00, 0xC8, 0x00, 0x01, 0x07, 0x65]

/-- V-DROP-5: a good CRC and another server's id. -/
def otherServer : List Byte := [0x12, 0x03, 0x00, 0xC8, 0x00, 0x01, 0x07, 0x57]

/-- V-FC5-1. -/
def goodCoilWrite : List Byte := [0x11, 0x05, 0x00, 0x65, 0xFF, 0x00, 0x9E, 0xB5]

/-- V-SOCK-1. -/
def socketRead : List Byte := [0x00, 0x01, 0x00, 0x00, 0x00, 0x06, 0x11, 0x03, 0x00, 0xC8, 0x00, 0x05]

/-- V-SOCK-3. -/
def socketWrite : List Byte := [0x12, 0x34, 0x00, 0x00, 0x00, 0x06, 0x11, 0x06, 0x00, 0xC8, 0x12, 0x34]

/-- A PDU of 253 bytes, the most a 260-byte receive holds. -/
def longPdu : List Byte := [0x10, 0x00, 0xC8, 0x00, 0x64, 0xC8] ++ List.replicate 247 0x12

theorem witness_DecodeOfEncodeIsIdentity :
    (Instr.writeMultipleRegisters 0xFFFF 0xFFFF 2 [0x12, 0x34]).wellFormed = true ∧
      (Instr.writeMultipleCoils 0 1 0 []).wellFormed = true ∧ (Instr.unsupported 0xFF).wellFormed = true := by decide

theorem witness_DecodeIgnoresBytesPastTheLayout :
    (Instr.writeMultipleCoils 100 8 1 [0xCD]).wellFormed = true ∧
      ∀ (addr qty : Word) (bc : Byte) (data : List Byte),
        Instr.writeMultipleCoils 100 8 1 [0xCD] = .writeMultipleCoils addr qty bc data ∨
            Instr.writeMultipleCoils 100 8 1 [0xCD] = .writeMultipleRegisters addr qty bc data →
          data.length = bc.toNat :=
  ⟨rfl, fun _ _ _ _ h => by rcases h with h | h <;> cases h; rfl⟩

theorem witness_DecodedInstructionMatchesItsPdu :
    decode [0x06, 0x00, 0xC8, 0x12, 0x34] = .ok (.writeSingleRegister 200 0x1234) ∧
      isSupported (functionCode (.writeSingleRegister 200 0x1234)) = true := ⟨rfl, rfl⟩

theorem witness_DecoderRefusesExactlyShortPdus :
    decode [] = .error .noFunctionCode ∧ decode [0x03, 0x00, 0xC8, 0x00] = .error .shortPayload ∧
      isSupported 0x03 = true := ⟨rfl, rfl, rfl⟩

/-- V-CRC-6: the shortest frame with residue 0. -/
theorem witness_CrcResidueIsZeroExactlyForGoodFrames :
    2 ≤ ([0xFF, 0xFF] : List Byte).length ∧ crc16 [0xFF, 0xFF] = 0 := by decide +kernel

theorem witness_TrailingZeroByteKeepsTheCrcGood :
    2 ≤ goodRead.length ∧ serialCrcOk goodRead State.reset = true := by decide +kernel

/-- V-PACK-5: nine bits, the last in bit 0 of the second byte, then seven bits of padding. -/
theorem witness_PackBitsPlacesEveryBit :
    8 < (List.replicate 9 true).length ∧ (List.replicate 9 true).length ≤ 15 ∧
      15 < 8 * (packBits (List.replicate 9 true)).length := by decide

/-- V-PACK-7, V-PACK-15 and both failures. -/
theorem witness_UnpackingTakesTheFirstValues :
    unpackBits [0xCD, 0x01] 10 = some [true, false, true, true, false, false, true, true, true, false] ∧
      unpackWords [0x12, 0x34, 0xAB, 0xCD] 2 = some [0x1234, 0xABCD] ∧ unpackBits [0xCD] 9 = none ∧
      unpackWords [0x12, 0x34, 0xAB] 2 = none ∧ 16 ≤ 8 * ([0xCD, 0x01] : List Byte).length ∧
      2 * 2 ≤ ([0x12, 0x34, 0xAB, 0xCD] : List Byte).length := by decide

theorem witness_PackWordsPlacesEveryByte : 1 < ([0x002A, 0x1234] : List Word).length := by decide

/-- V-VAL-1, V-VAL-3 and V-VAL-4. -/
theorem witness_ValidatorBoundaries :
    ((Params.standard.config.shape .coil).base ≤ 100 ∧
        100 + 10 ≤ (Params.standard.config.shape .coil).base + (Params.standard.config.shape .coil).len) ∧
      (1 ≤ (Params.standard.config.shape .coil).base ∧ 99 = (Params.standard.config.shape .coil).base - 1) ∧
      100 + 11 = (Params.standard.config.shape .coil).base + (Params.standard.config.shape .coil).len + 1 := by decide

theorem witness_GetReturnsTheCellsOfTheRange :
    State.reset.mem.wf State.reset.cfg = true ∧ InRange State.reset.cfg .hold 299 1 ∧
      InRange State.reset.cfg .hold 300 0 ∧ ¬ InRange State.reset.cfg .hold 299 2 := by decide +kernel

theorem witness_SetWritesExactlyTheRange :
    State.reset.mem.wf State.reset.cfg = true ∧ InRange State.reset.cfg .coil 108 [true, false].length ∧
      ¬ InRange State.reset.cfg .coil 109 [true, false].length := by decide +kernel

/-- 2040 coils of BIG, one past SC's end, 2041 coils of BIG. -/
theorem witness_ReadCoilsResult :
    ((bigWith .serial []).mem.wf (bigWith .serial []).cfg = true ∧
        InRange (bigWith .serial []).cfg .coil (8 : Word).toNat (2040 : Word).toNat ∧ (2040 : Word).toNat ≤ 2040) ∧
      ¬ InRange State.reset.cfg .coil (100 : Word).toNat (11 : Word).toNat ∧
      (InRange (bigWith .serial []).cfg .coil (7 : Word).toNat (2041 : Word).toNat ∧ 2040 < (2041 : Word).toNat) := by
  decide +kernel

theorem witness_ReadDiscreteInputsResult :
    ((bigWith .serial []).mem.wf (bigWith .serial []).cfg = true ∧
        InRange (bigWith .serial []).cfg .disc (8 : Word).toNat (2040 : Word).toNat ∧ (2040 : Word).toNat ≤ 2040) ∧
      ¬ InRange State.reset.cfg .disc (0 : Word).toNat (17 : Word).toNat ∧
      (InRange (bigWith .serial []).cfg .disc (7 : Word).toNat (2041 : Word).toNat ∧ 2040 < (2041 : Word).toNat) := by
  decide +kernel

theorem witness_ReadHoldingRegistersResult :
    ((bigWith .serial []).mem.wf (bigWith .serial []).cfg = true ∧
        InRange (bigWith .serial []).cfg .hold (73 : Word).toNat (127 : Word).toNat ∧ (127 : Word).toNat ≤ 127) ∧
      ¬ InRange State.reset.cfg .hold (199 : Word).toNat (1 : Word).toNat ∧
      (InRange (bigWith .serial []).cfg .hold (72 : Word).toNat (128 : Word).toNat ∧ 127 < (128 : Word).toNat) := by
  decide +kernel

theorem witness_ReadInputRegistersResult :
    ((bigWith .serial []).mem.wf (bigWith .serial []).cfg = true ∧
        InRange (bigWith .serial []).cfg .input (73 : Word).toNat (127 : Word).toNat ∧ (127 : Word).toNat ≤ 127) ∧
      ¬ InRange State.reset.cfg .input (8 : Word).toNat (1 : Word).toNat ∧
      (InRange (bigWith .serial []).cfg .input (72 : Word).toNat (128 : Word).toNat ∧ 127 < (128 : Word).toNat) := by
  decide +kernel

theorem witness_WriteSingleCoilResult :
    (State.reset.mem.wf State.reset.cfg = true ∧ InRange State.reset.cfg .coil (109 : Word).toNat 1 ∧
        InRange State.reset.cfg .coil (100 : Word).toNat 1) ∧
      ¬ InRange State.reset.cfg .coil (110 : Word).toNat 1 ∧ (0x00FF : Word) ≠ 0xFF00 ∧ (0x00FF : Word) ≠ 0x0000 := by
  decide +kernel

theorem witness_WriteSingleRegisterResult :
    (State.reset.mem.wf State.reset.cfg = true ∧ InRange State.reset.cfg .hold (299 : Word).toNat 1) ∧
      ¬ InRange State.reset.cfg .hold (300 : Word).toNat 1 ∧ ¬ InRange State.reset.cfg .hold (199 : Word).toNat 1 := by
  decide +kernel

/-- Eight coils from one byte of DATA; one coil past the end; nine coils from one byte. -/
theorem witness_WriteMultipleCoilsResult :
    (State.reset.mem.wf State.reset.cfg = true ∧ InRange State.reset.cfg .coil (102 : Word).toNat (8 : Word).toNat ∧
        (8 : Word).toNat ≤ 8 * ([0xCD] : List Byte).length) ∧
      ¬ InRange State.reset.cfg .coil (103 : Word).toNat (8 : Word).toNat ∧
      (InRange State.reset.cfg .coil (101 : Word).toNat (9 : Word).toNat ∧
        8 * ([0xCD] : List Byte).length < (9 : Word).toNat) := by decide +kernel

theorem witness_WriteMultipleRegistersResult :
    (State.reset.mem.wf State.reset.cfg = true ∧ InRange State.reset.cfg .hold (298 : Word).toNat (2 : Word).toNat ∧
        2 * (2 : Word).toNat ≤ ([0x12, 0x34, 0xAB, 0xCD] : List Byte).length) ∧
      ¬ InRange State.reset.cfg .hold (299 : Word).toNat (2 : Word).toNat ∧
      (InRange State.reset.cfg .hold (298 : Word).toNat (2 : Word).toNat ∧
        ([0x12, 0x34, 0xAB] : List Byte).length < 2 * (2 : Word).toNat) := by decide +kernel

theorem witness_UnsupportedCodesAnswerIllegalFunction :
    (0x00 : Byte) ∉ ([0x01, 0x02, 0x03, 0x04, 0x05, 0x06, 0x0F, 0x10] : List Byte) ∧
      (0x07 : Byte) ∉ ([0x01, 0x02, 0x03, 0x04, 0x05, 0x06, 0x0F, 0x10] : List Byte) ∧
      (0x11 : Byte) ∉ ([0x01, 0x02, 0x03, 0x04, 0x05, 0x06, 0x0F, 0x10] : List Byte) ∧
      (0xFF : Byte) ∉ ([0x01, 0x02, 0x03, 0x04, 0x05, 0x06, 0x0F, 0x10] : List Byte) := by decide

/-- V-VAL-7, V-VAL-22 and the two other tables' ends. -/
theorem witness_ZeroCountIsLegal :
    InRange State.reset.cfg .coil (110 : Word).toNat 0 ∧ InRange State.reset.cfg .disc (16 : Word).toNat 0 ∧
      InRange State.reset.cfg .hold (300 : Word).toNat 0 ∧ InRange State.reset.cfg .input (8 : Word).toNat 0 := by
  decide +kernel

/-- Both transports, for ResponseEnvelopes and ExceptionResponseForms. -/
theorem witness_ResponseEnvelopes :
    (serialWith []).cfg.transport = .serial ∧ (socketWith []).cfg.transport = .socket := by decide

theorem witness_ExceptionResponseForms :
    (bigWith .serial []).cfg.transport = .serial ∧ (bigWith .socket []).cfg.transport = .socket := by decide

theorem witness_ContractFaultStopsTheBlock :
    { serialWith [goodRead] with fault := true }.fault = true := rfl

theorem witness_WrittenRegistersReadBack :
    (bigWith .serial []).mem.wf (bigWith .serial []).cfg = true ∧
      InRange (bigWith .serial []).cfg .hold (73 : Word).toNat (127 : Word).toNat ∧
      2 * (127 : Word).toNat ≤ (List.replicate 254 (0xA5 : Byte)).length ∧ (127 : Word).toNat ≤ 127 ∧
      ∃ t, exec (.writeMultipleRegisters 73 127 254 (List.replicate 254 0xA5)) (bigWith .serial []) = .next t :=
  ⟨by decide +kernel, by decide +kernel, by decide +kernel, by decide, ⟨_, rfl⟩⟩

theorem witness_SerialStepRunsTheDecodedInstruction :
    (serialWith [goodRead]).fault = false ∧ (serialWith [goodRead]).cfg.transport = .serial ∧
      (serialWith [goodRead]).polls = goodRead :: [] ∧ goodRead = (serialWith [goodRead]).rxbuf ++ goodRead ∧
      8 ≤ goodRead.length ∧
      crc16 (goodRead.take (goodRead.length - 2)) =
        wordOf (goodRead.getD (goodRead.length - 1) 0) (goodRead.getD (goodRead.length - 2) 0) ∧
      goodRead.getD 0 0 = (serialWith [goodRead]).cfg.serverId ∧
      decode (goodRead.getD 1 0 :: slice goodRead 2 (goodRead.length - 2)) = .ok (.readHoldingRegisters 200 1) :=
  ⟨by decide +kernel, by decide +kernel, by decide +kernel, by decide +kernel, by decide +kernel, by decide +kernel,
    by decide +kernel, rfl⟩

/-- With LENF = 2, the least a frame can have (V-SOCK-9), and on V-SOCK-1 padded to 260 bytes. -/
theorem witness_SocketStepRunsTheDecodedInstruction :
    ((socketWith [[0x00, 0x04, 0x00, 0x00, 0x00, 0x02, 0x11, 0x07]]).fault = false ∧
        8 ≤ ([0x00, 0x04, 0x00, 0x00, 0x00, 0x02, 0x11, 0x07] : List Byte).length ∧
        2 ≤ (be16 [0x00, 0x04, 0x00, 0x00, 0x00, 0x02, 0x11, 0x07] 4).toNat ∧
        6 + (be16 [0x00, 0x04, 0x00, 0x00, 0x00, 0x02, 0x11, 0x07] 4).toNat ≤ 8 ∧
        decode [0x07] = .ok (.unsupported 0x07)) ∧
      ((socketWith [socketRead ++ List.replicate 248 0xEE]).fault = false ∧
        (socketWith [socketRead ++ List.replicate 248 0xEE]).cfg.transport = .socket ∧
        (socketRead ++ List.replicate 248 0xEE).length ≤ 260 ∧
        2 ≤ (be16 (socketRead ++ List.replicate 248 0xEE) 4).toNat ∧
        6 + (be16 (socketRead ++ List.replicate 248 0xEE) 4).toNat ≤ (socketRead ++ List.replicate 248 0xEE).length ∧
        (socketRead ++ List.replicate 248 0xEE).getD 6 0 = (socketWith []).cfg.serverId ∧
        decode
            ((socketRead ++ List.replicate 248 0xEE).getD 7 0 ::
              slice (socketRead ++ List.replicate 248 0xEE) 8
                (6 + (be16 (socketRead ++ List.replicate 248 0xEE) 4).toNat)) =
          .ok (.readHoldingRegisters 200 5)) :=
  ⟨⟨by decide +kernel, by decide, by decide, by decide, rfl⟩,
    by decide +kernel, by decide +kernel, by decide +kernel, by decide +kernel, by decide +kernel, by decide +kernel,
    decode_eq_of_decodesTo (by decide +kernel)⟩

theorem witness_BlockHoldsItsStateBetweenPolls :
    (serialWith []).fault = false ∧ (serialWith []).polls = [] := by decide +kernel

/-- A PDU of five bytes on the serial transport, one of 253 on a socket. -/
theorem witness_RequestFrameRunsItsInstruction :
    ((serialWith [requestFrame (serialWith []).cfg [0x03, 0x00, 0xC8, 0x00, 0x01]]).fault = false ∧
        (serialWith [requestFrame (serialWith []).cfg [0x03, 0x00, 0xC8, 0x00, 0x01]]).rxbuf = [] ∧
        decode [0x03, 0x00, 0xC8, 0x00, 0x01] = .ok (.readHoldingRegisters 200 1)) ∧
      ((socketWith [requestFrame (socketWith []).cfg longPdu]).fault = false ∧
        (socketWith [requestFrame (socketWith []).cfg longPdu]).rxbuf = [] ∧
        decode longPdu = .ok (.writeMultipleRegisters 200 100 200 (List.replicate 200 0x12)) ∧ 5 ≤ longPdu.length ∧
        longPdu.length ≤ 253) :=
  ⟨⟨by decide +kernel, by decide +kernel, rfl⟩, by decide +kernel, by decide +kernel,
    decode_eq_of_decodesTo (by decide +kernel), by decide +kernel, by decide +kernel⟩

/-- Orders 1 to 4 of R139: FAULT = 1; seven bytes; a bad trailer; another server's id. -/
theorem witness_SerialPollFollowsTheOrderOfChecks :
    { serialWith [goodRead] with fault := true }.fault = true ∧ (goodRead.take 7).length < 8 ∧
      (8 ≤ badCrc.length ∧
        crc16 (badCrc.take (badCrc.length - 2)) ≠
          wordOf (badCrc.getD (badCrc.length - 1) 0) (badCrc.getD (badCrc.length - 2) 0)) ∧
      (crc16 (otherServer.take (otherServer.length - 2)) =
          wordOf (otherServer.getD (otherServer.length - 1) 0) (otherServer.getD (otherServer.length - 2) 0) ∧
        otherServer.getD 0 0 ≠ (serialWith []).cfg.serverId) := by decide +kernel

/-- Orders 5 to 8 of R139: each exception and the success. -/
theorem witness_SerialPollFollowsTheOrderOfChecks_accepted :
    exceptionOf State.reset.cfg (.unsupported 0x07) = some 0x01 ∧
      exceptionOf State.reset.cfg (.writeSingleCoil 110 0x1234) = some 0x02 ∧
      exceptionOf State.reset.cfg (.writeSingleCoil 109 0x1234) = some 0x03 ∧
      exceptionOf State.reset.cfg (.readHoldingRegisters 200 1) = none := by decide +kernel

/-- Orders 1 to 6 of R140: V-SOCK-16, V-SOCK-12, V-SOCK-13, V-SOCK-15, V-SOCK-11. -/
theorem witness_SocketPollFollowsTheOrderOfChecks :
    { socketWith [socketRead] with fault := true }.fault = true ∧
      ([0x00, 0x01, 0x00, 0x00, 0x00, 0x01, 0x11] : List Byte).length < 8 ∧
      (be16 [0x00, 0x06, 0x00, 0x00, 0x00, 0x01, 0x11, 0x03] 4).toNat < 2 ∧
      socketRead.length < 6 + (be16 [0x00, 0x07, 0x00, 0x00, 0x00, 0x07, 0x11, 0x03, 0x00, 0xC8, 0x00, 0x05] 4).toNat ∧
      ([0x00, 0x09, 0x00, 0x00, 0x00, 0x06, 0x12, 0x03, 0x00, 0xC8, 0x00, 0x01] : List Byte).getD 6 0 ≠
        (socketWith []).cfg.serverId ∧
      (isSupported 0x03 = true ∧ (be16 [0x00, 0x05, 0x00, 0x00, 0x00, 0x05, 0x11, 0x03, 0x00, 0xC8, 0x00] 4).toNat - 2 < 4) := by
  decide +kernel

/-- Orders 5 and 7 to 9 of R140: V-SOCK-9 (an unsupported code needs no payload) and V-SOCK-1. -/
theorem witness_SocketPollFollowsTheOrderOfChecks_accepted :
    (8 ≤ socketRead.length ∧ 2 ≤ (be16 socketRead 4).toNat ∧ 6 + (be16 socketRead 4).toNat ≤ socketRead.length ∧
        socketRead.getD 6 0 = (socketWith []).cfg.serverId ∧ 6 ≤ (be16 socketRead 4).toNat) ∧
      isSupported 0x07 = false := by decide +kernel

/-- An 8-byte serial request, and a 12-byte socket request with protocol id 0 and LENF = 6. -/
theorem witness_SingleWriteEchoesTheRequest :
    ((serialWith [goodCoilWrite]).fault = false ∧ (serialWith [goodCoilWrite]).rxbuf = [] ∧ goodCoilWrite.length = 8 ∧
        exceptionOf State.reset.cfg (.writeSingleCoil 101 0xFF00) = none ∧
        frameCode .serial goodCoilWrite ∈ ([0x05, 0x06] : List Byte) ∧
        crc16 (goodCoilWrite.take (goodCoilWrite.length - 2)) =
          wordOf (goodCoilWrite.getD (goodCoilWrite.length - 1) 0) (goodCoilWrite.getD (goodCoilWrite.length - 2) 0) ∧
        goodCoilWrite.getD 0 0 = State.reset.cfg.serverId ∧
        decode (goodCoilWrite.getD 1 0 :: slice goodCoilWrite 2 (goodCoilWrite.length - 2)) =
          .ok (.writeSingleCoil 101 0xFF00)) ∧
      ((socketWith [socketWrite]).fault = false ∧ socketWrite.length = 12 ∧ be16 socketWrite 2 = 0 ∧
        be16 socketWrite 4 = 6 ∧ exceptionOf (socketWith []).cfg (.writeSingleRegister 200 0x1234) = none ∧
        frameCode .socket socketWrite ∈ ([0x05, 0x06] : List Byte) ∧
        socketWrite.getD 6 0 = (socketWith []).cfg.serverId ∧
        decode (socketWrite.getD 7 0 :: slice socketWrite 8 (6 + (be16 socketWrite 4).toNat)) =
          .ok (.writeSingleRegister 200 0x1234)) :=
  ⟨⟨by decide +kernel, by decide +kernel, by decide, by decide +kernel, by decide, by decide +kernel, by decide +kernel,
      rfl⟩,
    by decide +kernel, by decide, by decide, by decide, by decide +kernel, by decide, by decide +kernel, rfl⟩

theorem witness_EveryPollHasExactlyOneOutcome :
    (serialWith [goodRead]).polls ≠ [] ∧ (∃ t, step (serialWith [goodRead]) = .next t ∧ true = true) ∧
      (serialWith []).polls = [] ∧ ∃ t, step (serialWith []) = .next t ∧ true = true :=
  ⟨by decide +kernel, exists_of_answersWith (p := fun _ => true) (by decide +kernel), by decide +kernel,
    exists_of_answersWith (p := fun _ => true) (by decide +kernel)⟩

/-- V-DROP-2 drops, V-DROP-8 retains, V-FC1-6 answers an exception. -/
theorem witness_DropsAndExceptionsWriteNothing :
    (∃ t, step (serialWith [badCrc]) = .next t ∧ (t.outcomes == (serialWith []).outcomes ++ [.drop]) = true) ∧
      (∃ t,
        step (serialWith [goodRead.take 7]) = .next t ∧
          (t.outcomes == (serialWith []).outcomes ++ [.retain]) = true) ∧
      (∃ t,
        step (serialWith [[0x11, 0x01, 0x00, 0x6E, 0x00, 0x01, 0x9E, 0x87]]) = .next t ∧
          (t.outcomes == (serialWith []).outcomes ++ [.emit [0x11, 0x81, 0x02, 0xC0, 0x54]]) = true) ∧
      (frameCode .serial [0x11, 0x81, 0x02, 0xC0, 0x54]).getLsbD 7 = true :=
  ⟨exists_of_answersWith (p := fun t => t.outcomes == (serialWith []).outcomes ++ [.drop]) (by decide +kernel),
    exists_of_answersWith (p := fun t => t.outcomes == (serialWith []).outcomes ++ [.retain]) (by decide +kernel),
    exists_of_answersWith
      (p := fun t => t.outcomes == (serialWith []).outcomes ++ [.emit [0x11, 0x81, 0x02, 0xC0, 0x54]])
      (by decide +kernel),
    by decide⟩

/-- V-DROP-1 and V-SOCK-1. -/
theorem witness_ResponsesAreBounded :
    (∃ t,
      step (serialWith [goodRead]) = .next t ∧
        (t.outcomes == (serialWith []).outcomes ++ [.emit [0x11, 0x03, 0x02, 0x00, 0x2A, 0xF8, 0x58]]) = true) ∧
      ∃ t,
        step (socketWith [socketRead]) = .next t ∧
          (t.outcomes ==
              (socketWith []).outcomes ++
                [.emit ([0x00, 0x01, 0x00, 0x00, 0x00, 0x0D, 0x11, 0x03, 0x0A] ++
                  [0x00, 0x2A, 0x00, 0x2A, 0x00, 0x2A, 0x00, 0x2A, 0x00, 0x2A])]) =
            true :=
  ⟨exists_of_answersWith
      (p := fun t => t.outcomes == (serialWith []).outcomes ++ [.emit [0x11, 0x03, 0x02, 0x00, 0x2A, 0xF8, 0x58]])
      (by decide +kernel),
    exists_of_answersWith
      (p := fun t =>
        t.outcomes ==
          (socketWith []).outcomes ++
            [.emit ([0x00, 0x01, 0x00, 0x00, 0x00, 0x0D, 0x11, 0x03, 0x0A] ++
              [0x00, 0x2A, 0x00, 0x2A, 0x00, 0x2A, 0x00, 0x2A, 0x00, 0x2A])])
      (by decide +kernel)⟩

theorem witness_TheBlockNeverStopsByItself : (serialWith [goodRead]).fault = false := by decide +kernel

theorem witness_EveryStepKeepsTheInvariant :
    (serialWith [goodCoilWrite]).Inv ∧ ∃ t, step (serialWith [goodCoilWrite]) = .next t ∧ true = true :=
  ⟨by decide +kernel, exists_of_answersWith (p := fun _ => true) (by decide +kernel)⟩

theorem witness_RunsKeepConfigurationAndReadOnlyTables :
    ∃ t, Host.Core.run Sys2Proof.core 2 (serialWith [goodCoilWrite, goodRead]) = .next t ∧ (t.polls == []) = true :=
  exists_of_answersWith (p := fun t => t.polls == []) (by decide +kernel)

/-- Two states that differ in every transient field, with FAULT 0 and with FAULT 1. -/
theorem witness_OutcomesDependOnPersistentStateAlone :
    (PersistentEq (serialWith [goodRead])
        { serialWith [goodRead] with
          crc := 0xBEEF, fsm := .respond, tx := [0x01], latches := { Latches.unwritten with sid := 0x55, qty := 9 } } ∧
      ∃ t, step (serialWith [goodRead]) = .next t ∧ true = true) ∧
      (PersistentEq { serialWith [goodRead] with fault := true }
          { serialWith [goodRead] with fault := true, crc := 0xBEEF } ∧
        step { serialWith [goodRead] with fault := true } = .fault .contractStuck) :=
  ⟨⟨by decide +kernel, exists_of_answersWith (p := fun _ => true) (by decide +kernel)⟩, by decide +kernel, rfl⟩

/-- A serial read, and a socket read padded to 260 bytes. -/
theorem witness_RepeatedReadRequestAnswersAlike :
    ((serialWith [goodRead, goodRead]).fault = false ∧ (serialWith [goodRead, goodRead]).rxbuf = [] ∧
        8 ≤ goodRead.length ∧ (serialWith []).cfg.transport ≠ .socket ∧
        frameCode (serialWith []).cfg.transport goodRead ∈ ([0x01, 0x02, 0x03, 0x04] : List Byte)) ∧
      ((socketWith [socketRead ++ List.replicate 248 0xEE, socketRead ++ List.replicate 248 0xEE]).fault = false ∧
        (socketRead ++ List.replicate 248 0xEE).length ≤ 260 ∧
        frameCode (socketWith []).cfg.transport (socketRead ++ List.replicate 248 0xEE) ∈
          ([0x01, 0x02, 0x03, 0x04] : List Byte)) := by decide +kernel

/-- V-DROP-9: seven bytes, then the last one. -/
theorem witness_FragmentsJoinAcrossPolls :
    (serialWith [goodRead.take 7, goodRead.drop 7]).fault = false ∧
      (serialWith [goodRead.take 7, goodRead.drop 7]).cfg.transport = .serial ∧
      ((serialWith [goodRead.take 7, goodRead.drop 7]).rxbuf ++ goodRead.take 7).length < 8 := by decide +kernel

/-- One of each class, and the code next to the last supported one. -/
theorem witness_FsmClassOfEveryFunctionCode :
    (Instr.readInputRegisters 0 8).wellFormed = true ∧ (Instr.writeSingleCoil 101 0x1234).wellFormed = true ∧
      (Instr.writeMultipleCoils 100 8 1 [0xCD]).wellFormed = true ∧ (Instr.unsupported 0x11).wellFormed = true := by
  decide

/-- The configuration of V-VAL-31: a table that runs past wire address 0xFFFF. -/
def pastTheEnd : Config := { Params.standard.config with coil := { base := 0xFFF0, len := 32 } }

/-- V-VAL-31, the address below the table, and the range of two cells that log 19 is about. -/
theorem witness_WireAddressesSelectTheirCells :
    validate pastTheEnd .coil (0xFFFF : Word).toNat 1 = true ∧ validate pastTheEnd .coil (0xFFEF : Word).toNat 1 = false ∧
      InRange pastTheEnd .coil (0xFFFF : Word).toNat 2 ∧ 0x10000 < (0xFFFF : Word).toNat + 2 := by decide

/-- The host's question for the row READ_COILS: the step after reset answers its frame. -/
theorem witness_withFetchWord :
    decodeTableWord 40 0x0A00640001 = some (.readCoils 100 10) ∧
      endsIn (State.reset.withFetchWord 40 0x0A00640001)
        (.emit [0x11, 0x01, 0x02, 0xCD, 0x01, 0xED, 0x6F]) State.reset.mem = true := by decide +kernel

end Sys2Proof.Tests
end

/-!
The family 10_state.md: what reset gives, what every poll keeps, and that transient state is read by no rule.

Everything rests on one fact about instructions, `answersByPriority_handle`: the function code byte and the payload an
instruction answers, and the data bank it leaves, are fixed by configuration and data bank alone. `Survives` then says
once what a poll may change, and `EndAlike` that two polls end alike.
-/
namespace Sys2Proof.Machine

/-! ### Reset -/

/-- The cells of a table at reset (R20), index by index. -/
theorem getElem?_initialCells {α : Type} (len : Nat) (dflt : α) (init : List α) (i : Nat) :
    (initialCells len dflt init)[i]? = if i < len then some (init.getD i dflt) else none := by
  by_cases hi : i < len
  · by_cases hs : i < init.length
    · simp [initialCells, hi, List.getElem?_append_left hs, hs]
    · have hd : i - init.length < len - init.length := by omega
      simp [initialCells, hi, List.getElem?_append_right (not_lt.mp hs), hd, not_lt.mp hs]
  · simp [initialCells, hi]

/-- Settles O47: the tables by the laws of the memory, the other fields as reset writes them. -/
theorem resetMeetsTheInvariant : Obligations.ResetMeetsTheInvariant := by
  unfold Obligations.ResetMeetsTheInvariant
  intro p
  exact ⟨resetWith_mem_wf p, by simp [State.resetWith], fun _ => rfl, rfl, rfl⟩

/-- Settles O48, table by table. -/
theorem resetValues : Obligations.ResetValues := by
  unfold Obligations.ResetValues
  intro p i
  exact ⟨getElem?_initialCells .., getElem?_initialCells .., getElem?_initialCells .., getElem?_initialCells ..,
    rfl, rfl, rfl, rfl⟩

/-! ### The contract fault -/

/-- Settles O33. -/
theorem contractFaultStopsTheBlock : Obligations.ContractFaultStopsTheBlock := by
  unfold Obligations.ContractFaultStopsTheBlock
  intro fc info s
  exact ⟨rfl, step_of_fault rfl, step_of_fault⟩

/-! ### What an instruction may do to the tables -/

/-- From m to m' the tables keep their sizes, DISC and INPUT their cells (R18, R19). -/
structure KeepsTables (m m' : Memory) : Prop where
  disc : m'.disc = m.disc
  input : m'.input = m.input
  sizes : ∀ k, (m'.cells k).length = (m.cells k).length

theorem KeepsTables.refl (m : Memory) : KeepsTables m m := ⟨rfl, rfl, fun _ => rfl⟩

theorem KeepsTables.trans {a b c : Memory} (hab : KeepsTables a b) (hbc : KeepsTables b c) : KeepsTables a c :=
  ⟨hbc.disc.trans hab.disc, hbc.input.trans hab.input, fun k => (hbc.sizes k).trans (hab.sizes k)⟩

/-- The memory's form is a fact about sizes. -/
theorem KeepsTables.wf {m m' : Memory} {c : Config} (h : KeepsTables m m') (hwf : m.wf c = true) : m'.wf c = true := by
  rw [wf_iff] at hwf ⊢
  exact fun k => (h.sizes k).trans (hwf k)

/-- As many cells written to COIL or HOLD, the two tables a client can write (R18). -/
theorem keepsTables_setCells {m : Memory} {k : TableKind} {v : List k.Cell} (hk : k = .coil ∨ k = .hold)
    (hv : v.length = (m.cells k).length) : KeepsTables m (m.setCells k v) := by
  refine ⟨?_, ?_, fun k' => ?_⟩
  · rcases hk with rfl | rfl <;> rfl
  · rcases hk with rfl | rfl <;> rfl
  · by_cases h : k' = k
    · subst h; simp [hv]
    · rw [cells_setCells_other m h]

/-! ### The exception a request gets -/

section
variable {c : Config} {i : Instr} {k : TableKind} {addr n : Nat}

theorem exceptionOf_outside (hr : rangeOf i = some (k, addr, n)) (h : ¬ InRange c k addr n) :
    exceptionOf c i = some (exceptionByte .illegalDataAddress) := by
  simp only [exceptionOf, hr, if_pos h, exceptionByte]

theorem exceptionOf_illegal (hr : rangeOf i = some (k, addr, n)) (h : InRange c k addr n) (hv : valueIllegal i = true) :
    exceptionOf c i = some (exceptionByte .illegalDataValue) := by
  simp only [exceptionOf, hr, if_neg (not_not.mpr h), if_pos hv, exceptionByte]

theorem exceptionOf_legal (hr : rangeOf i = some (k, addr, n)) (h : InRange c k addr n) (hv : valueIllegal i = false) :
    exceptionOf c i = none := by
  simp only [exceptionOf, hr, if_neg (not_not.mpr h), hv, Bool.false_eq_true, if_false]

end

/-! ### The answer of an instruction -/

/-- The response (fcr, p) and the data bank m' are what the order of checks (60_exceptions.md R139, orders 5 to 8) allows
for i on configuration c and data bank m. -/
def RespondsByPriority (c : Config) (m : Memory) (i : Instr) (m' : Memory) (fcr : Byte) (p : List Byte) : Prop :=
  match exceptionOf c i with
  | some code => fcr = functionCode i ||| 0x80 ∧ p = [code] ∧ m' = m
  | none => fcr = functionCode i ∧ KeepsTables m m'

theorem respondsByPriority_exception {c : Config} {i : Instr} {code : Byte} (h : exceptionOf c i = some code)
    (m : Memory) : RespondsByPriority c m i m (functionCode i ||| 0x80) [code] := by
  simp [RespondsByPriority, h]

theorem respondsByPriority_success {c : Config} {i : Instr} {m m' : Memory} (h : exceptionOf c i = none)
    (hm : KeepsTables m m') (p : List Byte) : RespondsByPriority c m i m' (functionCode i) p := by
  simp [RespondsByPriority, h, hm]

theorem RespondsByPriority.keepsTables {c : Config} {m m' : Memory} {i : Instr} {fcr : Byte} {p : List Byte}
    (h : RespondsByPriority c m i m' fcr p) : KeepsTables m m' := by
  unfold RespondsByPriority at h
  split at h
  · obtain ⟨-, -, rfl⟩ := h
    exact .refl _
  · exact h.2

/-- The handler h of i answers every state with configuration c and data bank m with one and the same response and data
bank, whatever the rest of the state. -/
def AnswersByPriority (c : Config) (m : Memory) (i : Instr) (h : State → Handled) : Prop :=
  ∃ m' fcr p, RespondsByPriority c m i m' fcr p ∧
    ∀ s : State, s.cfg = c → s.mem = m → ∃ l, conclude (functionCode i) (h s) = answered s m' l fcr p

/-- Whatever was written between s and t, an answer does not look at it: answering t and answering s are the same. -/
def AnsweredAs (t s : State) : Prop :=
  ∀ m l fcr p, answered t m l fcr p = answered s m l fcr p

section
variable {c : Config} {m : Memory} {i : Instr} {h : State → Handled}

/-- A handler that raises the exception the order of checks gives. -/
theorem answersByPriority_of_exception {code : ExceptionCode} (he : exceptionOf c i = some (exceptionByte code))
    (hh : ∀ s : State, s.cfg = c → ∃ t, h s = .exception code t ∧ t.mem = s.mem ∧ AnsweredAs t s) :
    AnswersByPriority c m i h := by
  refine ⟨m, _, _, respondsByPriority_exception he m, ?_⟩
  rintro s hc rfl
  obtain ⟨t, ht, hmem, hans⟩ := hh s hc
  exact ⟨t.latches, by rw [ht, conclude_exception, hans, hmem]; rfl⟩

/-- A handler that succeeds where the order of checks gives no exception. -/
theorem answersByPriority_of_reply {m' : Memory} {p : List Byte} (he : exceptionOf c i = none) (hm : KeepsTables m m')
    (hh : ∀ s : State, s.cfg = c → s.mem = m →
      ∃ r t, h s = .reply r t ∧ t.mem = m' ∧ replyPayload t.latches r = p ∧ AnsweredAs t s) :
    AnswersByPriority c m i h := by
  refine ⟨m', _, p, respondsByPriority_success he hm p, fun s hc hs => ?_⟩
  obtain ⟨r, t, ht, hmem, hp, hans⟩ := hh s hc hs
  exact ⟨t.latches, by rw [ht, conclude_reply, hans, hmem, hp]⟩

end

section
variable {c : Config} {m : Memory} {i : Instr} {k : TableKind} {addr qty : Word} {f : Fsm}

/-- A read (43_function_codes.md R122 to R125) whose illegal counts are those of more than 255 bytes (R131). -/
theorem answersByPriority_readTable {n : Nat} (pack : List k.Cell → List Byte)
    (hr : rangeOf i = some (k, addr.toNat, qty.toNat)) (hv : valueIllegal i = decide (255 < n)) :
    AnswersByPriority c m i fun s => readTable k pack n addr qty (beginOperation f addr qty s) := by
  by_cases hin : InRange c k addr.toNat qty.toNat
  · by_cases hn : 255 < n
    · refine answersByPriority_of_exception (exceptionOf_illegal hr hin (by simp [hv, hn])) ?_
      rintro s rfl
      exact ⟨_, readTable_oversized (s := beginOperation f addr qty s) hin hn _, rfl, fun _ _ _ _ => rfl⟩
    · refine answersByPriority_of_reply (exceptionOf_legal hr hin (by simp [hv, hn])) (.refl m)
        (p := replyPayload .unwritten
          (.readResult (pack (((m.cells k).drop (cellIndex c k addr.toNat)).take qty.toNat)))) ?_
      rintro s rfl rfl
      exact ⟨_, _, readTable_success (s := beginOperation f addr qty s) hin (not_lt.mp hn) _, rfl, rfl,
        fun _ _ _ _ => rfl⟩
  · refine answersByPriority_of_exception (exceptionOf_outside hr hin) ?_
    rintro s rfl
    exact ⟨_, readTable_outside (s := beginOperation f addr qty s) hin _ _, rfl, fun _ _ _ _ => rfl⟩

/-- A single write (R126, R127), `none` being the illegal value. -/
theorem answersByPriority_writeSingle {v : Option k.Cell} (hk : k = .coil ∨ k = .hold)
    (hr : rangeOf i = some (k, addr.toNat, 1)) (hv : valueIllegal i = v.isNone) :
    AnswersByPriority c m i fun s => writeSingle k addr v (beginOperation f addr qty s) := by
  by_cases hin : InRange c k addr.toNat 1
  · cases v with
    | none =>
      refine answersByPriority_of_exception (exceptionOf_illegal hr hin hv) ?_
      rintro s rfl
      exact ⟨_, writeSingle_illegal hin, rfl, fun _ _ _ _ => rfl⟩
    | some v =>
      have hm : KeepsTables m (m.setCells k ((m.cells k).set (cellIndex c k addr.toNat) v)) :=
        keepsTables_setCells hk (by simp)
      refine answersByPriority_of_reply (p := toBE16 addr ++ toBE16 qty) (exceptionOf_legal hr hin hv) hm ?_
      rintro s rfl rfl
      exact ⟨_, _, writeSingle_success (s := beginOperation f addr qty s) hin v, rfl, rfl, fun _ _ _ _ => rfl⟩
  · refine answersByPriority_of_exception (exceptionOf_outside hr hin) ?_
    rintro s rfl
    exact ⟨_, writeSingle_outside (s := beginOperation f addr qty s) hin v, rfl, fun _ _ _ _ => rfl⟩

/-- A multiple write (R128, R129), its value illegal when the unpacking fails. -/
theorem answersByPriority_writeMultiple {unpack : List Byte → Nat → Option (List k.Cell)} {bc : Byte}
    {data : List Byte} (hk : k = .coil ∨ k = .hold) (hu : ∀ vs, unpack data qty.toNat = some vs → vs.length = qty.toNat)
    (hr : rangeOf i = some (k, addr.toNat, qty.toNat)) (hv : valueIllegal i = (unpack data qty.toNat).isNone) :
    AnswersByPriority c m i fun s => writeMultiple k unpack addr qty bc data (beginOperation f addr qty s) := by
  by_cases hin : InRange c k addr.toNat qty.toNat
  · cases hd : unpack data qty.toNat with
    | none =>
      refine answersByPriority_of_exception (exceptionOf_illegal hr hin (by simp [hv, hd])) ?_
      rintro s rfl
      exact ⟨_, writeMultiple_short (s := beginOperation f addr qty s) hin hd bc, rfl, fun _ _ _ _ => rfl⟩
    | some vs =>
      have hm : KeepsTables m (m.setCells k (writeCells (m.cells k) (cellIndex c k addr.toNat) vs)) :=
        keepsTables_setCells hk (by simp)
      refine answersByPriority_of_reply (p := toBE16 addr ++ toBE16 qty)
        (exceptionOf_legal hr hin (by simp [hv, hd])) hm ?_
      rintro s rfl rfl
      exact ⟨_, _, writeMultiple_success (s := beginOperation f addr qty s) hin hd (hu vs hd) bc, rfl, rfl,
        fun _ _ _ _ => rfl⟩
  · refine answersByPriority_of_exception (exceptionOf_outside hr hin) ?_
    rintro s rfl
    exact ⟨_, writeMultiple_outside (s := beginOperation f addr qty s) hin unpack bc data, rfl, fun _ _ _ _ => rfl⟩

end

/-- A code outside the eight (R130). -/
theorem answersByPriority_unsupported (c : Config) (m : Memory) (fc : Byte) :
    AnswersByPriority c m (.unsupported fc) handleUnsupported :=
  answersByPriority_of_exception (code := .illegalFunction) rfl fun _ _ => ⟨_, rfl, rfl, fun _ _ _ _ => rfl⟩

/-- A bit read's byte count passes 255 exactly from 2041 bits on (R131). -/
theorem byteCount_bits_oversized (n : Nat) : decide (2040 < n) = decide (255 < ceilDiv n 8) :=
  decide_eq_decide.mpr (by rw [ceilDiv]; omega)

/-- A word read's byte count passes 255 exactly from 128 words on (R131). -/
theorem byteCount_words_oversized (n : Nat) : decide (127 < n) = decide (255 < 2 * n) :=
  decide_eq_decide.mpr (by omega)

/-- The illegal coil values of 30_encoding.md R66. -/
theorem isNone_coilValue (v : Word) : decide (v ≠ 0xFF00 ∧ v ≠ 0x0000) = (coilValue v).isNone := by
  by_cases h1 : v = 0xFF00
  · simp [coilValue, h1]
  · by_cases h0 : v = 0x0000
    · simp [coilValue, h0]
    · rw [coilValue, if_neg h1, if_neg h0]
      exact decide_eq_true ⟨h1, h0⟩

theorem isNone_unpackBits (d : List Byte) (n : Nat) : decide (8 * d.length < n) = (unpackBits d n).isNone := by
  by_cases h : 8 * d.length < n <;> simp [unpackBits, h]

theorem isNone_unpackWords (d : List Byte) (n : Nat) : decide (d.length < 2 * n) = (unpackWords d n).isNone := by
  by_cases h : d.length < 2 * n <;> simp [unpackWords, h]

/-- Every instruction answers by the order of checks, and from configuration and data bank alone. -/
theorem answersByPriority_handle (c : Config) (m : Memory) (i : Instr) : AnswersByPriority c m i (handle i) := by
  cases i with
  | readCoils addr qty => exact answersByPriority_readTable _ rfl (byteCount_bits_oversized _)
  | readDiscreteInputs addr qty => exact answersByPriority_readTable _ rfl (byteCount_bits_oversized _)
  | readHoldingRegisters addr qty => exact answersByPriority_readTable _ rfl (byteCount_words_oversized _)
  | readInputRegisters addr qty => exact answersByPriority_readTable _ rfl (byteCount_words_oversized _)
  | writeSingleCoil addr value => exact answersByPriority_writeSingle (.inl rfl) rfl (isNone_coilValue value)
  | writeSingleRegister addr value =>
    exact answersByPriority_writeSingle (i := .writeSingleRegister addr value) (v := some value) (.inr rfl) rfl rfl
  | writeMultipleCoils addr qty bc data =>
    exact answersByPriority_writeMultiple (.inl rfl) (fun _ => length_of_unpackBits) rfl (isNone_unpackBits _ _)
  | writeMultipleRegisters addr qty bc data =>
    exact answersByPriority_writeMultiple (.inr rfl) (fun _ => length_of_unpackWords) rfl (isNone_unpackWords _ _)
  | unsupported fc => exact answersByPriority_unsupported c m fc

/-- The meaning of an instruction is the end of its own handler (43_function_codes.md R118). -/
theorem exec_eq_conclude (i : Instr) (s : State) : exec i s = .next (conclude (functionCode i) (handle i s)) := by
  cases i <;> rfl

/-- All exec can do, for all states with one configuration and data bank together. -/
theorem exec_answers (c : Config) (m : Memory) (i : Instr) :
    ∃ m' fcr p, RespondsByPriority c m i m' fcr p ∧
      ∀ s : State, s.cfg = c → s.mem = m → ∃ l, exec i s = .next (answered s m' l fcr p) := by
  obtain ⟨m', fcr, p, hresp, hans⟩ := answersByPriority_handle c m i
  refine ⟨m', fcr, p, hresp, fun s hc hm => ?_⟩
  obtain ⟨l, hl⟩ := hans s hc hm
  exact ⟨l, by rw [exec_eq_conclude, hl]⟩

/-- Settles O30. -/
theorem everyInstructionAnswersByThePriorityOfChecks : Obligations.EveryInstructionAnswersByThePriorityOfChecks := by
  unfold Obligations.EveryInstructionAnswersByThePriorityOfChecks
  intro i s
  obtain ⟨m, fcr, p, hresp, hans⟩ := exec_answers s.cfg s.mem i
  obtain ⟨l, hl⟩ := hans s rfl rfl
  refine ⟨m, l, fcr, p, hl, ?_⟩
  unfold RespondsByPriority at hresp
  cases he : exceptionOf s.cfg i with
  | some code => simpa only [he] using hresp
  | none =>
    simp only [he] at hresp
    obtain ⟨hfc, hkeep⟩ := hresp
    exact ⟨hfc, hkeep.disc, hkeep.input⟩

/-! ### What survives a poll -/

/-- The handling of a frame went from s to u: one outcome was added, COIL and HOLD may have other cells, and what else
survives a poll stands as it was, FSM back in Idle if it was there. -/
structure Survives (s u : State) : Prop where
  cfg : u.cfg = s.cfg
  mem : KeepsTables s.mem u.mem
  rxbuf : u.rxbuf = s.rxbuf
  fsm : s.fsm = .idle → u.fsm = .idle
  fault : u.fault = s.fault
  polls : u.polls = s.polls
  outcomes : ∃ o, u.outcomes = s.outcomes ++ [o]

/-- An outcome recorded, whatever CRC, latches and TX became meanwhile. -/
theorem survives_record (s : State) (w : Word) (l : Latches) (b : List Byte) (o : PollOutcome) :
    Survives s { s with crc := w, latches := l, tx := b, outcomes := s.outcomes ++ [o] } :=
  ⟨rfl, .refl _, rfl, id, rfl, rfl, o, rfl⟩

/-- Survival looks at no transient field but FSM: what survives from an accepted frame survives from the poll's start. -/
theorem Survives.of_latched {s u : State} {w : Word} {l : Latches} (h : Survives { s with crc := w, latches := l } u) :
    Survives s u :=
  ⟨h.cfg, h.mem, h.rxbuf, h.fsm, h.fault, h.polls, h.outcomes⟩

theorem exec_survives (i : Instr) (s : State) : ∃ u, exec i s = .next u ∧ Survives s u := by
  obtain ⟨m, fcr, p, hresp, hans⟩ := exec_answers s.cfg s.mem i
  obtain ⟨l, hl⟩ := hans s rfl rfl
  exact ⟨_, hl, rfl, hresp.keepsTables, rfl, fun _ => rfl, rfl, rfl, _, rfl⟩

theorem dispatchPdu_survives (s : State) : ∃ u, dispatchPdu s = .next u ∧ Survives s u := by
  cases hd : decode (s.latches.fc :: s.latches.pay) with
  | ok i => rw [dispatchPdu_of_decode hd]; exact exec_survives i s
  | error e => exact ⟨_, dispatchPdu_of_error hd, rfl, .refl _, rfl, fun _ => rfl, rfl, rfl, _, rfl⟩

/-- The state a serial frame is dispatched in: CRC and latches alone were written. -/
theorem serialAccepted_eq (f : List Byte) (s : State) :
    serialAccepted f s =
      { s with
        crc := crc16 (f.take (f.length - 2))
        latches := { s.latches with sid := f.getD 0 0, fc := f.getD 1 0, pay := slice f 2 (f.length - 2) } } := by
  rw [serialAccepted, serialChecked, crcCompute_eq]
  rfl

theorem serialFrame_survives (f : List Byte) (s : State) : ∃ u, serialFrame f s = .next u ∧ Survives s u := by
  rw [serialFrame_eq]
  split
  · exact ⟨_, rfl, survives_record s ..⟩
  · split
    · exact ⟨_, rfl, survives_record s ..⟩
    · obtain ⟨u, hu, hs⟩ := dispatchPdu_survives (serialAccepted f s)
      rw [serialAccepted_eq] at hs
      exact ⟨u, hu, hs.of_latched⟩

theorem socketFrame_survives (r : List Byte) (s : State) : ∃ u, socketFrame r s = .next u ∧ Survives s u := by
  rw [socketFrame]
  split
  · exact ⟨_, rfl, survives_record s ..⟩
  · split
    · exact ⟨_, rfl, survives_record s ..⟩
    · obtain ⟨u, hu, hs⟩ := dispatchPdu_survives (socketAccepted r s)
      exact ⟨u, hu, Survives.of_latched (w := s.crc) hs⟩

/-- A serial poll leaves a short buffer (R22): what it retained, or nothing. -/
theorem serialPoll_survives (r : List Byte) (s : State) :
    ∃ u b, serialPoll r s = .next u ∧ b.length < 8 ∧ Survives (s.setRxbuf b) u := by
  rw [serialPoll_eq]
  split
  · next hb => exact ⟨_, _, rfl, hb, survives_record _ ..⟩
  · obtain ⟨u, hu, hs⟩ := serialFrame_survives (s.rxbuf ++ r) (s.setRxbuf [])
    exact ⟨u, [], hu, by simp, hs⟩

theorem socketPoll_survives (r : List Byte) (s : State) : ∃ u, socketPoll r s = .next u ∧ Survives s u := by
  rw [socketPoll]
  split
  · exact ⟨_, rfl, survives_record s ..⟩
  · split
    · exact ⟨_, rfl, survives_record s ..⟩
    · exact socketFrame_survives r s

/-- All a poll may change, on either transport. -/
theorem handlePoll_survives (r : List Byte) (s : State) :
    ∃ u b, handlePoll r s = .next u ∧ Survives (s.setRxbuf b) u ∧ (s.cfg.transport = .serial → b.length < 8) ∧
      (s.cfg.transport = .socket → b = s.rxbuf) := by
  rw [handlePoll]
  cases s.cfg.transport with
  | serial =>
    obtain ⟨u, b, hu, hb, hs⟩ := serialPoll_survives r s
    exact ⟨u, b, hu, hs, fun _ => hb, nofun⟩
  | socket =>
    obtain ⟨u, hu, hs⟩ := socketPoll_survives r s
    exact ⟨u, s.rxbuf, hu, hs, nofun, fun _ => rfl⟩

/-- All a step with a poll waiting may change: the polls to come, RXBUF, and what the handling of a frame may. -/
theorem step_survives {s : State} (hf : s.fault = false) (hp : s.polls ≠ []) :
    ∃ t p b, step s = .next t ∧ Survives ((s.setPolls p).setRxbuf b) t ∧
      (s.cfg.transport = .serial → b.length < 8) ∧ (s.cfg.transport = .socket → b = s.rxbuf) := by
  obtain ⟨chunk, rest, hp⟩ := List.exists_cons_of_ne_nil hp
  obtain ⟨u, b, hu, hs, hserial, hsocket⟩ :=
    handlePoll_survives (received s.cfg.transport chunk) (s.setPolls (pollsLeft s.cfg.transport chunk rest))
  refine ⟨discardLatches u, pollsLeft s.cfg.transport chunk rest, b, ?_, ?_, hserial, hsocket⟩
  · rw [step_of_poll hf hp, hu]
    rfl
  · exact ⟨hs.cfg, hs.mem, hs.rxbuf, hs.fsm, hs.fault, hs.polls, hs.outcomes⟩

/-- With FAULT = 0 and no poll waiting the block holds its state (60_exceptions.md R150). -/
theorem step_of_no_poll {s : State} (hf : s.fault = false) (hp : s.polls = []) : step s = .next s := by
  simp [step, hf, hp]

/-- Settles O45: with no poll the state is held, with one FAULT survives. -/
theorem theBlockNeverStopsByItself : Obligations.TheBlockNeverStopsByItself := by
  unfold Obligations.TheBlockNeverStopsByItself
  intro s hf
  by_cases hp : s.polls = []
  · exact ⟨s, step_of_no_poll hf hp, hf⟩
  · obtain ⟨t, p, b, ht, hs, -, -⟩ := step_survives hf hp
    exact ⟨t, ht, hs.fault.trans hf⟩

/-- What a taken step can be: the state held, or a poll that `step_survives` speaks of. -/
theorem step_next_cases {s t : State} (h : step s = .next t) :
    t = s ∨ ∃ p b, Survives ((s.setPolls p).setRxbuf b) t ∧
      (s.cfg.transport = .serial → b.length < 8) ∧ (s.cfg.transport = .socket → b = s.rxbuf) := by
  obtain ⟨hf, ⟨-, rfl⟩ | ⟨chunk, rest, -, hp, -, -⟩⟩ := step_cases h
  · exact .inl rfl
  · obtain ⟨t', p, b, ht, hs⟩ := step_survives hf (by simp [hp])
    cases h.symm.trans ht
    exact .inr ⟨p, b, hs⟩

/-- Settles O46: each clause of the invariant is one that survives a poll. -/
theorem everyStepKeepsTheInvariant : Obligations.EveryStepKeepsTheInvariant := by
  unfold Obligations.EveryStepKeepsTheInvariant
  rintro s t ⟨hwf, hbuf, hsock, hfsm, hfault⟩ h
  obtain rfl | ⟨p, b, hs, hserial, hsocket⟩ := step_next_cases h
  · exact ⟨hwf, hbuf, hsock, hfsm, hfault⟩
  have hcfg : t.cfg = s.cfg := hs.cfg
  have hrx : t.rxbuf = b := hs.rxbuf
  have hlen : b.length < 8 := by
    cases ht : s.cfg.transport with
    | serial => exact hserial ht
    | socket => rw [hsocket ht]; exact hbuf
  refine ⟨?_, by rwa [hrx], fun ht => ?_, hs.fsm hfsm, hs.fault.trans hfault⟩
  · rw [hcfg]
    exact hs.mem.wf hwf
  · rw [hcfg] at ht
    rw [hrx, hsocket ht, hsock ht]

/-! ### Runs -/

/-- A step keeps the configuration, the sizes of the tables and the cells of DISC and INPUT, from any state. -/
theorem step_keepsTables {s t : State} (h : step s = .next t) : t.cfg = s.cfg ∧ KeepsTables s.mem t.mem := by
  obtain rfl | ⟨p, b, hs, -, -⟩ := step_next_cases h
  · exact ⟨rfl, .refl _⟩
  · exact ⟨hs.cfg, hs.mem⟩

/-- A run of k + 1 steps is a step and a run of k. -/
theorem run_succ_cases {M : Host.Core} {k : Nat} {s t : M.State} (h : M.run (k + 1) s = .next t) :
    ∃ u, M.step s = .next u ∧ M.run k u = .next t := by
  rw [Host.Core.run] at h
  cases hu : M.step s with
  | next u => rw [hu] at h; exact ⟨u, rfl, h⟩
  | fault r => rw [hu] at h; cases h
  | refused r => rw [hu] at h; cases h

/-- So does a run of any length, by induction on it. -/
theorem run_keepsTables {n : Nat} {s t : State} (h : Host.Core.run core n s = .next t) :
    t.cfg = s.cfg ∧ KeepsTables s.mem t.mem := by
  induction n generalizing s with
  | zero => cases h; exact ⟨rfl, .refl _⟩
  | succ n ih =>
    obtain ⟨u, hu, hrun⟩ := run_succ_cases h
    obtain ⟨hcfg, hmem⟩ := step_keepsTables hu
    obtain ⟨hcfg', hmem'⟩ := ih hrun
    exact ⟨hcfg'.trans hcfg, hmem.trans hmem'⟩

/-- Settles O49. -/
theorem runsKeepConfigurationAndReadOnlyTables : Obligations.RunsKeepConfigurationAndReadOnlyTables := by
  unfold Obligations.RunsKeepConfigurationAndReadOnlyTables
  intro n s t h
  obtain ⟨hcfg, hmem⟩ := run_keepsTables h
  exact ⟨hcfg, hmem.disc, hmem.input, hmem.sizes⟩

/-! ### Polls that end alike -/

/-- Both ended in a next state, and the two agree on all that is not transient. -/
def EndAlike (o₁ o₂ : Host.Outcome State Fault Refusal) : Prop :=
  ∃ u₁ u₂, o₁ = .next u₁ ∧ o₂ = .next u₂ ∧ PersistentEq u₁ u₂

/-- The same outcome recorded on both sides. -/
theorem endAlike_record {s₁ s₂ : State} (h : PersistentEq s₁ s₂) (o : PollOutcome) :
    EndAlike (.next (s₁.record o)) (.next (s₂.record o)) := by
  obtain ⟨hcfg, hmem, hrx, hfault, hpolls, hout⟩ := h
  exact ⟨_, _, rfl, rfl, hcfg, hmem, hrx, hfault, hpolls, by simp [hout]⟩

/-- A response frame is made of the configuration, SID, and on a socket TXN (42_frame_codec.md R106, R107). -/
theorem responseFrame_congr {s₁ s₂ : State} (hcfg : s₁.cfg = s₂.cfg) (hsid : s₁.latches.sid = s₂.latches.sid)
    (htxn : s₁.cfg.transport = .socket → s₁.latches.txn = s₂.latches.txn) (fcr : Byte) (p : List Byte) :
    responseFrame s₁ fcr p = responseFrame s₂ fcr p := by
  cases ht : s₁.cfg.transport with
  | serial => simp only [responseFrame, ← hcfg, ht, hsid]
  | socket => simp only [responseFrame, ← hcfg, ht, hsid, htxn ht]

section
variable {s₁ s₂ : State} (h : PersistentEq s₁ s₂) (hsid : s₁.latches.sid = s₂.latches.sid)
  (htxn : s₁.cfg.transport = .socket → s₁.latches.txn = s₂.latches.txn)
include h hsid htxn

/-- Of the transient state an instruction reads SID and TXN alone. -/
theorem exec_endAlike (i : Instr) : EndAlike (exec i s₁) (exec i s₂) := by
  obtain ⟨hcfg, hmem, hrx, hfault, hpolls, hout⟩ := h
  obtain ⟨m, fcr, p, -, hans⟩ := exec_answers s₁.cfg s₁.mem i
  obtain ⟨l₁, h₁⟩ := hans s₁ rfl rfl
  obtain ⟨l₂, h₂⟩ := hans s₂ hcfg.symm hmem.symm
  refine ⟨_, _, h₁, h₂, hcfg, rfl, hrx, hfault, hpolls, ?_⟩
  simp only [answered, hout, responseFrame_congr hcfg hsid htxn]

/-- Dispatch reads FC and PAY besides. -/
theorem dispatchPdu_endAlike (hfc : s₁.latches.fc = s₂.latches.fc) (hpay : s₁.latches.pay = s₂.latches.pay) :
    EndAlike (dispatchPdu s₁) (dispatchPdu s₂) := by
  cases hd : decode (s₁.latches.fc :: s₁.latches.pay) with
  | ok i =>
    rw [dispatchPdu_of_decode hd, dispatchPdu_of_decode (s := s₂) (by rw [← hfc, ← hpay, hd])]
    exact exec_endAlike h hsid htxn i
  | error e =>
    rw [dispatchPdu_of_error hd, dispatchPdu_of_error (s := s₂) (by rw [← hfc, ← hpay, hd])]
    exact endAlike_record (by exact h) .drop

end

section
variable {s₁ s₂ : State} (h : PersistentEq s₁ s₂)
include h

/-- A serial frame writes SID, FC and PAY before any rule reads them; TXN is read on a socket alone. -/
theorem serialFrame_endAlike (ht : s₁.cfg.transport = .serial) (f : List Byte) :
    EndAlike (serialFrame f s₁) (serialFrame f s₂) := by
  rw [serialFrame_eq, serialFrame_eq, h.1]
  split
  · exact endAlike_record (by exact h) .drop
  · split
    · exact endAlike_record (by exact h) .drop
    · rw [serialAccepted_eq, serialAccepted_eq]
      exact dispatchPdu_endAlike h rfl (fun hs => by cases ht.symm.trans hs) rfl rfl

/-- A socket frame writes TXN, SID, FC and PAY before any rule reads them. -/
theorem socketFrame_endAlike (r : List Byte) : EndAlike (socketFrame r s₁) (socketFrame r s₂) := by
  rw [socketFrame, socketFrame, h.1]
  split
  · exact endAlike_record (by exact h) .drop
  · split
    · exact endAlike_record (by exact h) .drop
    · exact dispatchPdu_endAlike (s₁ := socketAccepted r s₁) (s₂ := socketAccepted r s₂) h rfl (fun _ => rfl) rfl rfl

theorem serialPoll_endAlike (ht : s₁.cfg.transport = .serial) (r : List Byte) :
    EndAlike (serialPoll r s₁) (serialPoll r s₂) := by
  obtain ⟨hcfg, hmem, hrx, hfault, hpolls, hout⟩ := h
  rw [serialPoll_eq, serialPoll_eq, hrx]
  split
  · refine endAlike_record ?_ .retain
    exact ⟨hcfg, hmem, rfl, hfault, hpolls, hout⟩
  · exact serialFrame_endAlike (s₁ := s₁.setRxbuf []) (s₂ := s₂.setRxbuf [])
      ⟨hcfg, hmem, rfl, hfault, hpolls, hout⟩ ht _

theorem socketPoll_endAlike (r : List Byte) : EndAlike (socketPoll r s₁) (socketPoll r s₂) := by
  rw [socketPoll, socketPoll]
  split
  · exact endAlike_record h .drop
  · split
    · exact endAlike_record h .drop
    · exact socketFrame_endAlike h r

theorem handlePoll_endAlike (r : List Byte) : EndAlike (handlePoll r s₁) (handlePoll r s₂) := by
  rw [handlePoll, handlePoll, ← h.1]
  cases ht : s₁.cfg.transport with
  | serial => exact serialPoll_endAlike h ht r
  | socket => exact socketPoll_endAlike h r

/-- From FAULT = 0 two states that agree on all but transient state step to two such states. -/
theorem step_endAlike (hf : s₁.fault = false) : EndAlike (step s₁) (step s₂) := by
  obtain ⟨hcfg, hmem, hrx, hfault, hpolls, hout⟩ := id h
  have hf₂ : s₂.fault = false := hfault.symm.trans hf
  cases hp : s₁.polls with
  | nil => exact ⟨s₁, s₂, step_of_no_poll hf hp, step_of_no_poll hf₂ (hpolls.symm.trans hp), h⟩
  | cons chunk rest =>
    obtain ⟨u₁, u₂, h₁, h₂, heq⟩ :=
      handlePoll_endAlike (s₁ := s₁.setPolls (pollsLeft s₁.cfg.transport chunk rest))
        (s₂ := s₂.setPolls (pollsLeft s₁.cfg.transport chunk rest)) ⟨hcfg, hmem, hrx, hfault, rfl, hout⟩
        (received s₁.cfg.transport chunk)
    refine ⟨discardLatches u₁, discardLatches u₂, by rw [step_of_poll hf hp, h₁]; rfl, ?_, heq⟩
    rw [step_of_poll hf₂ (hpolls.symm.trans hp), ← hcfg, h₂]
    rfl

end

/-- Settles O50: with FAULT = 1 both stop with the one fault there is, else `step_endAlike`. -/
theorem outcomesDependOnPersistentStateAlone : Obligations.OutcomesDependOnPersistentStateAlone := by
  unfold Obligations.OutcomesDependOnPersistentStateAlone
  intro s₁ s₂ h
  obtain ⟨-, -, -, hfault, -, -⟩ := id h
  cases hf : s₁.fault with
  | true =>
    have hstop : step s₁ = step s₂ := by rw [step_of_fault hf, step_of_fault (hfault.symm.trans hf)]
    refine ⟨fun t₁ h₁ => ?_, fun e he => hstop ▸ he⟩
    cases (step_of_fault hf).symm.trans h₁
  | false =>
    obtain ⟨u₁, u₂, h₁, h₂, heq⟩ := step_endAlike h hf
    refine ⟨fun t₁ ht => ?_, fun e he => by cases h₁.symm.trans he⟩
    cases h₁.symm.trans ht
    exact ⟨u₂, h₂, heq⟩

end Sys2Proof.Machine

/-!
The family 20_memory.md: which cell a wire address selects.
-/
namespace Sys2Proof.Machine

/-- A range of one cell lies in the table exactly when its address does (R46). -/
theorem inRange_one_iff (c : Config) (k : TableKind) (addr : Nat) :
    InRange c k addr 1 ↔ (c.shape k).base ≤ addr ∧ addr < (c.shape k).base + (c.shape k).len := by
  rw [InRange, ← Nat.succ_le_iff]

/-- From the base up, the index of the selected cell gives the address back (R46). -/
theorem base_add_cellIndex {c : Config} {k : TableKind} {addr : Nat} (h : (c.shape k).base ≤ addr) :
    (c.shape k).base + cellIndex c k addr = addr :=
  Nat.add_sub_cancel' h

/-- Settles O54: the cell's two bounds are those of its address, the table's end and the 16 bits of a word. The last
clause is the validator's formula, which has no bound at 0x10000. -/
theorem wireAddressesSelectTheirCells : Obligations.WireAddressesSelectTheirCells := by
  unfold Obligations.WireAddressesSelectTheirCells
  intro c k addr
  refine ⟨(validate_iff ..).trans (inRange_one_iff ..), fun hv => ?_, fun n hr _ => (validate_iff ..).mpr hr⟩
  obtain ⟨hbase, hend⟩ := (inRange_one_iff ..).mp ((validate_iff ..).mp hv)
  have hcell := base_add_cellIndex hbase
  have hword : addr.toNat < 0x10000 := addr.isLt
  refine ⟨hcell, ?_, ?_⟩ <;> omega

end Sys2Proof.Machine

/-!
The family 30_encoding.md: the decoder and the encoder, and the frame that carries a PDU to the block.
-/
namespace Sys2Proof.Machine

/-! ### The decoder, code by code -/

/-- The eight codes of R62. -/
theorem isSupported_iff (fc : Byte) :
    isSupported fc = true ↔
      fc = 0x01 ∨ fc = 0x02 ∨ fc = 0x03 ∨ fc = 0x04 ∨ fc = 0x05 ∨ fc = 0x06 ∨ fc = 0x0F ∨ fc = 0x10 := by
  simp [isSupported, supportedCodes]

theorem decode_of_unsupported {fc : Byte} (h : isSupported fc = false) (pay : List Byte) :
    decode (fc :: pay) = .ok (.unsupported fc) := by
  rw [decode, if_pos h]

theorem decode_of_short {fc : Byte} {pay : List Byte} (hs : isSupported fc = true) (h : pay.length < 4) :
    decode (fc :: pay) = .error .shortPayload := by
  rw [decode, if_neg (by simp [hs]), if_pos h]

section
variable {pay : List Byte} (h : 4 ≤ pay.length)
include h

theorem decode_readCoils : decode (0x01 :: pay) = .ok (.readCoils (be16 pay 0) (be16 pay 2)) := by
  rw [decode, if_neg (by decide), if_neg (by omega)]; rfl

theorem decode_readDiscreteInputs : decode (0x02 :: pay) = .ok (.readDiscreteInputs (be16 pay 0) (be16 pay 2)) := by
  rw [decode, if_neg (by decide), if_neg (by omega)]; rfl

theorem decode_readHoldingRegisters :
    decode (0x03 :: pay) = .ok (.readHoldingRegisters (be16 pay 0) (be16 pay 2)) := by
  rw [decode, if_neg (by decide), if_neg (by omega)]; rfl

theorem decode_readInputRegisters : decode (0x04 :: pay) = .ok (.readInputRegisters (be16 pay 0) (be16 pay 2)) := by
  rw [decode, if_neg (by decide), if_neg (by omega)]; rfl

theorem decode_writeSingleCoil : decode (0x05 :: pay) = .ok (.writeSingleCoil (be16 pay 0) (be16 pay 2)) := by
  rw [decode, if_neg (by decide), if_neg (by omega)]; rfl

theorem decode_writeSingleRegister : decode (0x06 :: pay) = .ok (.writeSingleRegister (be16 pay 0) (be16 pay 2)) := by
  rw [decode, if_neg (by decide), if_neg (by omega)]; rfl

theorem decode_writeMultipleCoils :
    decode (0x0F :: pay) =
      .ok (.writeMultipleCoils (be16 pay 0) (be16 pay 2) (byteCountOf pay) (writeDataOf pay)) := by
  rw [decode, if_neg (by decide), if_neg (by omega)]; rfl

theorem decode_writeMultipleRegisters :
    decode (0x10 :: pay) =
      .ok (.writeMultipleRegisters (be16 pay 0) (be16 pay 2) (byteCountOf pay) (writeDataOf pay)) := by
  rw [decode, if_neg (by decide), if_neg (by omega)]; rfl

end

/-! ### The fields of a payload that was written out (R56 to R58) -/

section
variable (addr qty : Word) (tail : List Byte)

theorem four_le_length_layout : 4 ≤ (toBE16 addr ++ (toBE16 qty ++ tail)).length := Nat.le_add_left 4 tail.length

@[simp] theorem be16_layout_addr : be16 (toBE16 addr ++ (toBE16 qty ++ tail)) 0 = addr :=
  wordOf_hiByte_loByte addr

@[simp] theorem be16_layout_qty : be16 (toBE16 addr ++ (toBE16 qty ++ tail)) 2 = qty :=
  wordOf_hiByte_loByte qty

@[simp] theorem byteCountOf_layout (bc : Byte) : byteCountOf (toBE16 addr ++ (toBE16 qty ++ bc :: tail)) = bc := rfl

/-- DATA is what follows BC, cut after BC bytes (R58). -/
@[simp] theorem writeDataOf_layout (bc : Byte) :
    writeDataOf (toBE16 addr ++ (toBE16 qty ++ bc :: tail)) = tail.take bc.toNat := by
  rw [writeDataOf, byteCountOf_layout, slice, Nat.add_sub_cancel_left]
  rfl

end

/-- DATA never has more than BC bytes (R58). -/
theorem length_writeDataOf_le (pay : List Byte) : (writeDataOf pay).length ≤ (byteCountOf pay).toNat := by
  rw [writeDataOf, length_slice]
  omega

/-! ### Decode after encode -/

/-- Bytes appended to a request are not read, as long as none of them is taken for DATA. -/
theorem decode_encode_append {i : Instr} {extra : List Byte} (hwf : i.wellFormed = true)
    (hdata : ∀ addr qty bc data,
      i = .writeMultipleCoils addr qty bc data ∨ i = .writeMultipleRegisters addr qty bc data →
        (data ++ extra).take bc.toNat = data) :
    decode (encode i ++ extra) = .ok i := by
  cases i with
  | readCoils addr qty => exact (decode_readCoils (four_le_length_layout addr qty extra)).trans (by simp)
  | readDiscreteInputs addr qty =>
    exact (decode_readDiscreteInputs (four_le_length_layout addr qty extra)).trans (by simp)
  | readHoldingRegisters addr qty =>
    exact (decode_readHoldingRegisters (four_le_length_layout addr qty extra)).trans (by simp)
  | readInputRegisters addr qty =>
    exact (decode_readInputRegisters (four_le_length_layout addr qty extra)).trans (by simp)
  | writeSingleCoil addr value =>
    exact (decode_writeSingleCoil (four_le_length_layout addr value extra)).trans (by simp)
  | writeSingleRegister addr value =>
    exact (decode_writeSingleRegister (four_le_length_layout addr value extra)).trans (by simp)
  | writeMultipleCoils addr qty bc data =>
    have htake := hdata addr qty bc data (.inl rfl)
    exact (decode_writeMultipleCoils (four_le_length_layout addr qty (bc :: (data ++ extra)))).trans (by simp [htake])
  | writeMultipleRegisters addr qty bc data =>
    have htake := hdata addr qty bc data (.inr rfl)
    exact (decode_writeMultipleRegisters (four_le_length_layout addr qty (bc :: (data ++ extra)))).trans
      (by simp [htake])
  | unsupported fc => exact decode_of_unsupported (fc := fc) (by simpa [Instr.wellFormed] using hwf) extra

/-- Settles O1: with nothing appended, DATA of at most BC bytes is read whole. -/
theorem decodeOfEncodeIsIdentity : Obligations.DecodeOfEncodeIsIdentity := by
  unfold Obligations.DecodeOfEncodeIsIdentity
  intro i hwf
  rw [← List.append_nil (encode i)]
  refine decode_encode_append hwf fun addr qty bc data hi => ?_
  have hlen : data.length ≤ bc.toNat := by
    obtain rfl | rfl := hi <;> exact of_decide_eq_true hwf
  rw [List.append_nil, List.take_of_length_le hlen]

/-- Settles O2: DATA of exactly BC bytes leaves none of the appended bytes to be read. -/
theorem decodeIgnoresBytesPastTheLayout : Obligations.DecodeIgnoresBytesPastTheLayout := by
  unfold Obligations.DecodeIgnoresBytesPastTheLayout
  intro i extra hwf hfull
  exact decode_encode_append hwf fun addr qty bc data hi => List.take_left' (hfull addr qty bc data hi)

/-! ### Encode after decode -/

/-- What a supported code's PDU decodes to: a well-formed instruction with that code, whose payload starts with the two
fields of the PDU's. -/
theorem decode_supported_cases {fc : Byte} {pay : List Byte} {i : Instr} (hs : isSupported fc = true)
    (h : decode (fc :: pay) = .ok i) :
    4 ≤ pay.length ∧ i.wellFormed = true ∧ functionCode i = fc ∧
      ∃ tail, requestPayload i = toBE16 (be16 pay 0) ++ toBE16 (be16 pay 2) ++ tail := by
  have hlen : 4 ≤ pay.length := by
    by_contra hshort
    rw [decode_of_short hs (not_le.mp hshort)] at h
    cases h
  have hdata := decide_eq_true (length_writeDataOf_le pay)
  refine ⟨hlen, ?_⟩
  obtain rfl | rfl | rfl | rfl | rfl | rfl | rfl | rfl := (isSupported_iff fc).mp hs
  · cases (decode_readCoils hlen).symm.trans h; exact ⟨rfl, rfl, [], rfl⟩
  · cases (decode_readDiscreteInputs hlen).symm.trans h; exact ⟨rfl, rfl, [], rfl⟩
  · cases (decode_readHoldingRegisters hlen).symm.trans h; exact ⟨rfl, rfl, [], rfl⟩
  · cases (decode_readInputRegisters hlen).symm.trans h; exact ⟨rfl, rfl, [], rfl⟩
  · cases (decode_writeSingleCoil hlen).symm.trans h; exact ⟨rfl, rfl, [], rfl⟩
  · cases (decode_writeSingleRegister hlen).symm.trans h; exact ⟨rfl, rfl, [], rfl⟩
  · cases (decode_writeMultipleCoils hlen).symm.trans h; exact ⟨hdata, rfl, _, rfl⟩
  · cases (decode_writeMultipleRegisters hlen).symm.trans h; exact ⟨hdata, rfl, _, rfl⟩

/-- Settles O3: the default row by its equation, a supported code by the two fields its payload starts with. -/
theorem decodedInstructionMatchesItsPdu : Obligations.DecodedInstructionMatchesItsPdu := by
  unfold Obligations.DecodedInstructionMatchesItsPdu
  intro p i h
  cases p with
  | nil => cases h
  | cons fc pay =>
    cases hs : isSupported fc with
    | false =>
      cases (decode_of_unsupported hs pay).symm.trans h
      exact ⟨by simp [Instr.wellFormed, hs], rfl, fun hsup => by cases hs.symm.trans hsup⟩
    | true =>
      obtain ⟨hlen, hwf, hfc, tail, hpay⟩ := decode_supported_cases hs h
      refine ⟨hwf, by rw [hfc]; rfl, fun _ => ⟨by simpa using hlen, ?_⟩⟩
      calc (encode i).take 5 = fc :: (toBE16 (be16 pay 0) ++ toBE16 (be16 pay 2)) := by rw [encode, hfc, hpay]; rfl
        _ = (fc :: pay).take 5 := by rw [fields_spell_payload pay hlen]; rfl

/-- Settles O5: each PDU is evaluated. -/
theorem writtenOutPdusDecode : Obligations.WrittenOutPdusDecode := ⟨rfl, rfl, rfl, rfl, rfl⟩

/-! ### The envelope around a PDU -/

section
variable (sid fc : Byte) (pay : List Byte)

/-- The serial frame, byte by byte: server id, function code, payload, and the trailer low byte first (R52). -/
theorem serialFrameOf_cons :
    serialFrameOf sid (fc :: pay) = sid :: fc :: (pay ++ toLE16 (crc16 (sid :: fc :: pay))) := rfl

theorem length_serialFrameOf (pdu : List Byte) : (serialFrameOf sid pdu).length = pdu.length + 3 := by
  simp [serialFrameOf]

theorem take_serialFrameOf (pdu : List Byte) :
    (serialFrameOf sid pdu).take ((serialFrameOf sid pdu).length - 2) = sid :: pdu := by
  rw [length_serialFrameOf]
  exact List.take_left' rfl

/-- The trailer spells the CRC of what stands before it (R87). -/
theorem trailer_serialFrameOf (pdu : List Byte) :
    wordOf ((serialFrameOf sid pdu).getD ((serialFrameOf sid pdu).length - 1) 0)
        ((serialFrameOf sid pdu).getD ((serialFrameOf sid pdu).length - 2) 0) = crc16 (sid :: pdu) := by
  rw [length_serialFrameOf]
  simp [serialFrameOf, toLE16, List.getD]

theorem slice_serialFrameOf :
    slice (serialFrameOf sid (fc :: pay)) 2 ((serialFrameOf sid (fc :: pay)).length - 2) = pay := by
  rw [length_serialFrameOf, serialFrameOf_cons, slice]
  exact List.take_left' rfl

/-- The socket frame, byte by byte: transaction id, protocol id 0, length, server id, function code, payload (R53). -/
theorem socketFrameOf_cons (txn : Word) :
    socketFrameOf txn sid (fc :: pay) =
      toBE16 txn ++ (0x00 :: 0x00 :: (toBE16 (BitVec.ofNat 16 (pay.length + 2)) ++ sid :: fc :: pay)) := rfl

theorem length_socketFrameOf (txn : Word) (pdu : List Byte) : (socketFrameOf txn sid pdu).length = pdu.length + 7 := by
  simp [socketFrameOf]; omega

/-- The header's length counts the server id and the PDU, where a word holds that many (R53). -/
theorem lenf_socketFrameOf (txn : Word) {pdu : List Byte} (h : pdu.length + 1 < 0x10000) :
    (be16 (socketFrameOf txn sid pdu) 4).toNat = pdu.length + 1 := by
  have hfield : be16 (socketFrameOf txn sid pdu) 4 = BitVec.ofNat 16 (pdu.length + 1) := wordOf_hiByte_loByte _
  rw [hfield, BitVec.toNat_ofNat, Nat.mod_eq_of_lt h]

theorem slice_socketFrameOf (txn : Word) (h : pay.length + 2 < 0x10000) :
    slice (socketFrameOf txn sid (fc :: pay)) 8 (6 + (be16 (socketFrameOf txn sid (fc :: pay)) 4).toNat) = pay := by
  rw [lenf_socketFrameOf sid txn (pdu := fc :: pay) h, List.length_cons, slice]
  exact List.take_of_length_le (by simp [socketFrameOf_cons]; omega)

end

/-! ### The poll that delivers an accepted frame -/

/-- R94 to R97, R118: a serial frame that passes the checks and whose PDU decodes to i runs i. -/
theorem step_of_accepted_serialFrame {s : State} {chunk f : List Byte} {rest : List (List Byte)} {i : Instr}
    (hfault : s.fault = false) (ht : s.cfg.transport = .serial) (hp : s.polls = chunk :: rest)
    (hbuf : s.rxbuf ++ chunk = f) (hlen : 8 ≤ f.length)
    (hcrc : crc16 (f.take (f.length - 2)) = wordOf (f.getD (f.length - 1) 0) (f.getD (f.length - 2) 0))
    (hsid : f.getD 0 0 = s.cfg.serverId) (hdec : decode (f.getD 1 0 :: slice f 2 (f.length - 2)) = .ok i) :
    step s = endPoll (exec i (serialAccepted f ((s.setPolls rest).setRxbuf []))) := by
  have hpoll : handlePoll chunk (s.setPolls rest) = serialFrame f ((s.setPolls rest).setRxbuf []) := by
    simp only [handlePoll, State.setPolls_cfg, ht, serialPoll_eq, State.setPolls_rxbuf, hbuf, if_neg (not_lt.mpr hlen)]
  have hframe : serialFrame f ((s.setPolls rest).setRxbuf []) =
      dispatchPdu (serialAccepted f ((s.setPolls rest).setRxbuf [])) := by
    rw [serialFrame_eq, if_neg (not_not.mpr hcrc), State.setRxbuf_cfg, State.setPolls_cfg, if_neg (not_not.mpr hsid)]
  have hexec := dispatchPdu_of_decode (s := serialAccepted f ((s.setPolls rest).setRxbuf [])) hdec
  rw [step_of_poll hfault hp, ht]
  exact congrArg endPoll (hpoll.trans (hframe.trans hexec))

/-- R99 to R101, R118: the same for a socket frame that one receive holds. -/
theorem step_of_accepted_socketFrame {s : State} {r : List Byte} {rest : List (List Byte)} {i : Instr}
    (hfault : s.fault = false) (ht : s.cfg.transport = .socket) (hp : s.polls = r :: rest) (hlen : 8 ≤ r.length)
    (hmax : r.length ≤ sockRxMax) (hlenf : 2 ≤ (be16 r 4).toNat) (hall : 6 + (be16 r 4).toNat ≤ r.length)
    (hsid : r.getD 6 0 = s.cfg.serverId)
    (hdec : decode (r.getD 7 0 :: slice r 8 (6 + (be16 r 4).toNat)) = .ok i) :
    step s = endPoll (exec i (socketAccepted r (s.setPolls rest))) := by
  have hrecv : received .socket r = r := List.take_of_length_le hmax
  have hleft : pollsLeft .socket r rest = rest := if_pos hmax
  have hpoll : handlePoll r (s.setPolls rest) = socketFrame r (s.setPolls rest) := by
    simp only [handlePoll, State.setPolls_cfg, ht]
    rw [socketPoll, if_neg (by omega), if_neg (by omega)]
  have hframe : socketFrame r (s.setPolls rest) = dispatchPdu (socketAccepted r (s.setPolls rest)) := by
    rw [socketFrame, if_neg (by omega), State.setPolls_cfg, if_neg (not_not.mpr hsid)]
  have hexec := dispatchPdu_of_decode (s := socketAccepted r (s.setPolls rest)) hdec
  rw [step_of_poll hfault hp, ht, hrecv, hleft, hpoll, hframe, hexec]

/-- Settles O38: on either transport the envelope passes the block's own checks, and the PDU taken out of it is the one
put in. -/
theorem requestFrameRunsItsInstruction : Obligations.RequestFrameRunsItsInstruction := by
  unfold Obligations.RequestFrameRunsItsInstruction
  intro s pdu i rest hfault hrx hp hdec hmin hmax
  obtain ⟨fc, pay, rfl⟩ := List.exists_cons_of_length_pos (show 0 < pdu.length by omega)
  rw [List.length_cons] at hmin hmax
  cases ht : s.cfg.transport with
  | serial =>
    simp only [requestFrame, ht] at hp
    have hpay := slice_serialFrameOf s.cfg.serverId fc pay
    have hcrc := (congrArg crc16 (take_serialFrameOf s.cfg.serverId (fc :: pay))).trans
      (trailer_serialFrameOf s.cfg.serverId (fc :: pay)).symm
    refine ⟨_, step_of_accepted_serialFrame hfault ht hp (by rw [hrx]; rfl) ?_ hcrc rfl ?_, ?_⟩
    · rw [length_serialFrameOf, List.length_cons]; omega
    · rw [hpay]; exact hdec
    · rw [serialAccepted_eq]
      exact ⟨rfl, rfl, rfl, hfault, rfl, rfl, rfl, congrArg (fc :: ·) hpay⟩
  | socket =>
    simp only [requestFrame, ht] at hp
    have hlen := length_socketFrameOf s.cfg.serverId 0 (fc :: pay)
    have hlenf := lenf_socketFrameOf s.cfg.serverId 0 (pdu := fc :: pay) (by rw [List.length_cons]; omega)
    have hpay := slice_socketFrameOf s.cfg.serverId fc pay 0 (by omega)
    rw [List.length_cons] at hlen hlenf
    have hroom : pay.length + 1 + 7 ≤ sockRxMax := by rw [sockRxMax]; omega
    refine ⟨_, step_of_accepted_socketFrame hfault ht hp (by omega) (by omega) (by omega) (by omega) rfl ?_,
      rfl, rfl, hrx, hfault, rfl, rfl, rfl, congrArg (fc :: ·) hpay⟩
    rw [hpay]; exact hdec

end Sys2Proof.Machine

/-!
The family 40_register_table.md: the range validator, get and set, and the count of 0.

`cellIndex_add_le_length` says that a range the validator accepts lies in its table, on which get and set rest.
`conclude_readTable` and `conclude_writeMultiple` say, for any count in range, how a multi-cell request is answered, and
a count of 0 is an instance of them.
-/
namespace Sys2Proof.Machine

/-! ### The validator (R71) -/

/-- Settles O17: each clause is arithmetic about the range the validator accepts. -/
theorem validatorBoundaries : Obligations.ValidatorBoundaries := by
  unfold Obligations.ValidatorBoundaries
  intro c k addr n
  have hiff := validate_iff c k addr n
  refine ⟨hiff, hiff.mpr, ?_, ?_⟩
  · rintro ⟨hpos, rfl⟩
    refine (validate_eq_false_iff ..).mpr fun ⟨hbase, _⟩ => ?_
    omega
  · intro hpast
    refine (validate_eq_false_iff ..).mpr fun ⟨_, hend⟩ => ?_
    omega

/-- An empty range lies in the table exactly when its address does, the address after the last included (R75). -/
theorem inRange_zero_iff (c : Config) (k : TableKind) (addr : Nat) :
    InRange c k addr 0 ↔ (c.shape k).base ≤ addr ∧ addr ≤ (c.shape k).base + (c.shape k).len :=
  Iff.rfl

/-! ### Get and set (R73, R74) -/

section
variable {k : TableKind} {addr : Nat} {s : State}

/-- The cells of a range in the table are cells of a well-formed memory. -/
theorem cellIndex_add_le_length {n : Nat} (hwf : s.mem.wf s.cfg = true) (h : InRange s.cfg k addr n) :
    cellIndex s.cfg k addr + n ≤ (s.mem.cells k).length := by
  obtain ⟨hbase, hend⟩ := h
  rw [(wf_iff _ _).mp hwf k, cellIndex]
  omega

theorem memRead_of_not_inRange {n : Nat} (h : ¬ InRange s.cfg k addr n) :
    memRead k addr n s = .error (.getOutOfRange k addr n) := by
  rw [memRead, (validate_eq_false_iff ..).mpr h]
  rfl

theorem memWrite_of_not_inRange {vs : List k.Cell} (h : ¬ InRange s.cfg k addr vs.length) :
    memWrite k addr vs s = .error (.setOutOfRange k addr vs.length) := by
  rw [memWrite, (validate_eq_false_iff ..).mpr h]
  rfl

end

/-- Writing one table leaves every cell outside the written range as it was, in that table and in the others. -/
theorem cell_setCells_writeCells_outside (m : Memory) (k : TableKind) (i : Nat) (vs : List k.Cell) (k' : TableKind)
    (j : Nat) (hout : k' = k → j < i ∨ i + vs.length ≤ j) :
    (m.setCells k (writeCells (m.cells k) i vs)).cell k' j = m.cell k' j := by
  by_cases hk : k' = k
  · subst hk
    rw [Memory.cell, cells_setCells_same, getElem?_writeCells_outside _ _ _ _ (hout rfl), Memory.cell]
  · rw [Memory.cell, cells_setCells_other m hk, Memory.cell]

/-- Writing one table gives each cell of the written range its value. -/
theorem cell_setCells_writeCells_inside (m : Memory) (k : TableKind) (i j : Nat) (vs : List k.Cell) (hj : j < vs.length)
    (hc : i + vs.length ≤ (m.cells k).length) :
    (m.setCells k (writeCells (m.cells k) i vs)).cell k (i + j) = vs[j]? := by
  rw [Memory.cell, cells_setCells_same, getElem?_writeCells_inside _ _ _ _ hj hc]

/-- Settles O18: get drops the cells before the range and takes n of the rest, and the range ends inside the table. -/
theorem getReturnsTheCellsOfTheRange : Obligations.GetReturnsTheCellsOfTheRange := by
  unfold Obligations.GetReturnsTheCellsOfTheRange
  intro k addr n s
  refine ⟨fun hwf hin => ⟨_, memRead_of_inRange hin, ?_, fun j hj => ?_⟩, memRead_of_not_inRange⟩
  · have hfit := cellIndex_add_le_length hwf hin
    rw [List.length_take, List.length_drop]
    omega
  · rw [List.getElem?_take_of_lt hj, List.getElem?_drop]
    rfl

/-- Settles O19: the cells of the range by the two laws of writing, the rest of the state by memWrite's own equation. -/
theorem setWritesExactlyTheRange : Obligations.SetWritesExactlyTheRange := by
  unfold Obligations.SetWritesExactlyTheRange
  intro k addr vs s
  refine ⟨fun hwf hin => ⟨_, memWrite_of_inRange hin, fun j hj => ?_, fun k' j hout => ?_⟩, memWrite_of_not_inRange⟩
  · exact cell_setCells_writeCells_inside _ _ _ _ _ hj (cellIndex_add_le_length hwf hin)
  · exact cell_setCells_writeCells_outside _ _ _ _ _ _ hout

/-! ### The answer to a multi-cell request in range -/

section
variable {k : TableKind} {addr qty : Word} {s : State} (hin : InRange s.cfg k addr.toNat qty.toNat)
include hin

/-- A read of no more than 255 bytes answers the packed cells of its range (R122 to R125). -/
theorem conclude_readTable {n : Nat} (hn : n ≤ 255) (pack : List k.Cell → List Byte) (fc : Byte) (f : Fsm) :
    conclude fc (readTable k pack n addr qty (beginOperation f addr qty s)) =
      answered s s.mem { s.latches with addr := addr, qty := qty } fc
        (replyPayload s.latches
          (.readResult (pack (((s.mem.cells k).drop (cellIndex s.cfg k addr.toNat)).take qty.toNat)))) := by
  rw [readTable_success (s := beginOperation f addr qty s) hin hn, conclude_reply]
  rfl

/-- A multiple write whose DATA is long enough writes the unpacked cells and acknowledges (R128, R129). -/
theorem conclude_writeMultiple {unpack : List Byte → Nat → Option (List k.Cell)} {data : List Byte} {vs : List k.Cell}
    (hd : unpack data qty.toNat = some vs) (hl : vs.length = qty.toNat) (bc fc : Byte) (f : Fsm) :
    conclude fc (writeMultiple k unpack addr qty bc data (beginOperation f addr qty s)) =
      answered s (s.mem.setCells k (writeCells (s.mem.cells k) (cellIndex s.cfg k addr.toNat) vs))
        { s.latches with addr := addr, qty := qty, bc := bc, data := data } fc (toBE16 addr ++ toBE16 qty) := by
  rw [writeMultiple_success (s := beginOperation f addr qty s) hin hd hl, conclude_reply]
  rfl

end

/-! ### The count of 0 (R75) -/

section
variable {k : TableKind} {addr : Word} {s : State} (hin : InRange s.cfg k addr.toNat 0)
include hin

/-- A read of no cells answers byte count 0 and no data. -/
theorem conclude_readTable_zero {pack : List k.Cell → List Byte} (hpack : pack [] = []) (fc : Byte) (f : Fsm) :
    conclude fc (readTable k pack 0 addr 0 (beginOperation f addr 0 s)) =
      answered s s.mem { s.latches with addr := addr, qty := 0 } fc [0x00] := by
  have h := conclude_readTable (qty := 0) hin (Nat.zero_le 255) pack fc f
  rw [show (0 : Word).toNat = 0 from rfl, List.take_zero, hpack] at h
  exact h

/-- A write of no cells unpacks none from any DATA, leaves the table as it was and acknowledges. -/
theorem conclude_writeMultiple_zero {unpack : List Byte → Nat → Option (List k.Cell)} {data : List Byte}
    (hd : unpack data 0 = some []) (bc fc : Byte) (f : Fsm) :
    conclude fc (writeMultiple k unpack addr 0 bc data (beginOperation f addr 0 s)) =
      answered s s.mem { s.latches with addr := addr, qty := 0, bc := bc, data := data } fc
        (toBE16 addr ++ [0x00, 0x00]) := by
  have h := conclude_writeMultiple (qty := 0) hin hd rfl bc fc f
  rw [writeCells, setCells_cells] at h
  exact h

end

theorem unpackBits_zero (d : List Byte) : unpackBits d 0 = some [] := if_neg (Nat.not_lt_zero _)

theorem unpackWords_zero (d : List Byte) : unpackWords d 0 = some [] := if_neg (Nat.not_lt_zero _)

/-- Settles O29: each code by the zero count of its shape. -/
theorem zeroCountIsLegal : Obligations.ZeroCountIsLegal := by
  unfold Obligations.ZeroCountIsLegal
  intro addr bc data s
  refine ⟨fun k => (validate_iff ..).trans (inRange_zero_iff ..), fun hcoil => ⟨?_, ?_⟩, fun hdisc => ?_,
    fun hhold => ⟨?_, ?_⟩, fun hinput => ?_⟩
  · exact congrArg _ (conclude_readTable_zero hcoil (pack := packBits) rfl 0x01 .read)
  · exact congrArg _ (conclude_writeMultiple_zero hcoil (unpackBits_zero data) bc 0x0F .writeMultiple)
  · exact congrArg _ (conclude_readTable_zero hdisc (pack := packBits) rfl 0x02 .read)
  · exact congrArg _ (conclude_readTable_zero hhold (pack := packWords) rfl 0x03 .read)
  · exact congrArg _ (conclude_writeMultiple_zero hhold (unpackWords_zero data) bc 0x10 .writeMultiple)
  · exact congrArg _ (conclude_readTable_zero hinput (pack := packWords) rfl 0x04 .read)

end Sys2Proof.Machine

/-!
The family 41_crc16.md: the two generators, the residue, the CRC unit's operations and the table.

Everything rests on one map, `crcShift`, the step of the table's construction. `crcByteSerial_eq` and `crcByteUpdate_eq`
say that either generator is eight such steps on the register XOR the byte, so they agree. `crcShift` is injective, so
for each byte only one register is updated to a given value, which is why testing for 0 is the trailer comparison.
-/
namespace Sys2Proof.Machine

/-! ### One shift of the register -/

/-- One step of the table's construction: a shift right, with the polynomial where a 1 falls out (R82). -/
def crcShift (c : Word) : Word := if c.getLsbD 0 = true then (c >>> 1) ^^^ crcPoly else c >>> 1

theorem crcBitUpdate_false (c : Word) : crcBitUpdate c false = crcShift c := by
  rw [crcBitUpdate, Bool.xor_false, crcShift]

/-- The lowest bit of a word may be fed as the data bit, and its other bits, shifted, be added after the step. -/
theorem crcShift_xor (c w : Word) : crcShift (c ^^^ w) = crcBitUpdate c (w.getLsbD 0) ^^^ (w >>> 1) := by
  simp only [crcShift, crcBitUpdate, BitVec.getLsbD_xor, BitVec.ushiftRight_xor_distrib]
  split
  · rw [BitVec.xor_assoc, BitVec.xor_assoc, BitVec.xor_comm (w >>> 1)]
  · rfl

/-- Feeding the low n bits of a word one by one is n shifts of the register XOR that word, but for the bits not yet
fed. -/
theorem iterate_crcShift_xor (crc w : Word) (n : Nat) :
    crcShift^[n] (crc ^^^ w) = (List.range n).foldl (fun c j => crcBitUpdate c (w.getLsbD j)) crc ^^^ (w >>> n) := by
  induction n with
  | zero => rfl
  | succ n ih =>
    rw [Function.iterate_succ_apply', ih, crcShift_xor, BitVec.getLsbD_ushiftRight, ← BitVec.shiftRight_add,
      List.range_succ, List.foldl_append]
    rfl

/-- The bits fed are 0: the word is only shifted along. -/
theorem iterate_crcShift_xor_of_low_zero (crc w : Word) (n : Nat) (h : ∀ j < n, w.getLsbD j = false) :
    crcShift^[n] (crc ^^^ w) = crcShift^[n] crc ^^^ (w >>> n) := by
  induction n with
  | zero => rfl
  | succ n ih =>
    have hbit : (w >>> n).getLsbD 0 = false := by simpa using h n n.lt_succ_self
    rw [Function.iterate_succ_apply', Function.iterate_succ_apply', ih fun j hj => h j (hj.trans n.lt_succ_self),
      crcShift_xor, hbit, crcBitUpdate_false, BitVec.shiftRight_add]

/-! ### The table (R82) -/

/-- The listed table, whole, is the constructed one. -/
theorem crcTable_eq : crcTable = (List.range 256).map fun i => crcShift^[8] (BitVec.ofNat 16 i) := by
  decide +kernel

theorem crcEntry_eq (i : Byte) : crcEntry i = crcShift^[8] (i.setWidth 16) := by
  rw [crcEntry, crcTable_eq, List.getD_eq_getElem _ _ (by simpa using i.isLt), List.getElem_map, List.getElem_range,
    BitVec.ofNat_toNat]

theorem crcEntry_zero : crcEntry 0#8 = 0#16 := rfl

/-- Settles O6: the fold of the construction does not look at its counter, so it is eight shifts. -/
theorem crcTableIsItsConstruction : Obligations.CrcTableIsItsConstruction := by
  unfold Obligations.CrcTableIsItsConstruction
  refine ⟨by rw [crcTable_eq, List.length_map, List.length_range], fun i => (crcEntry_eq i).trans ?_⟩
  exact (List.foldl_const crcShift (i.setWidth 16) (List.range 8)).symm

/-! ### The byte updates (R83, R84) -/

theorem crcByteSerial_eq (crc : Word) (b : Byte) : crcByteSerial crc b = crcShift^[8] (crc ^^^ b.setWidth 16) := by
  have hfed : b.setWidth 16 >>> 8 = 0#16 := by
    ext i hi
    simp
  rw [iterate_crcShift_xor, hfed, BitVec.xor_zero, crcByteSerial]
  refine List.foldl_ext _ _ _ fun c j hj => ?_
  rw [BitVec.getLsbD_setWidth, decide_eq_true ((List.mem_range.mp hj).trans (by decide)), Bool.true_and]

/-- A word is its low byte XOR the bits above it. -/
theorem loByte_xor_high (x : Word) : (loByte x).setWidth 16 ^^^ (x >>> 8 <<< 8) = x := by
  ext i hi
  by_cases h8 : i < 8
  · simp [loByte, h8, hi]
  · simp [loByte, h8, Nat.add_sub_cancel' (not_lt.mp h8), ← BitVec.getLsbD_eq_getElem]
    exact BitVec.lt_of_getLsbD

theorem iterate_crcShift_eight (x : Word) : crcShift^[8] x = (x >>> 8) ^^^ crcEntry (loByte x) := by
  have hlow : ∀ j < 8, (x >>> 8 <<< 8).getLsbD j = false := fun j hj => by simp [hj]
  have hhigh : x >>> 8 <<< 8 >>> 8 = x >>> 8 := by
    ext i hi
    simpa using BitVec.lt_of_getLsbD
  calc crcShift^[8] x = crcShift^[8] ((loByte x).setWidth 16 ^^^ (x >>> 8 <<< 8)) := by rw [loByte_xor_high]
    _ = crcEntry (loByte x) ^^^ (x >>> 8) := by
      rw [iterate_crcShift_xor_of_low_zero _ _ 8 hlow, hhigh, crcEntry_eq]
    _ = (x >>> 8) ^^^ crcEntry (loByte x) := BitVec.xor_comm ..

theorem crcByteUpdate_eq (crc : Word) (b : Byte) : crcByteUpdate crc b = crcShift^[8] (crc ^^^ b.setWidth 16) := by
  have hshift : (crc ^^^ b.setWidth 16) >>> 8 = crc >>> 8 := by
    ext i hi
    simp
  rw [iterate_crcShift_eight, hshift, crcByteUpdate]

theorem crcByteSerial_eq_crcByteUpdate (crc : Word) (b : Byte) : crcByteSerial crc b = crcByteUpdate crc b :=
  (crcByteSerial_eq crc b).trans (crcByteUpdate_eq crc b).symm

theorem foldl_crcByteSerial (bytes : List Byte) : bytes.foldl crcByteSerial crcInitValue = crc16 bytes := by
  rw [funext₂ crcByteSerial_eq_crcByteUpdate, crc16]

/-- Settles O7: on a register and a byte either generator is eight shifts of their XOR. -/
theorem bitSerialCrcEqualsTableCrc : Obligations.BitSerialCrcEqualsTableCrc :=
  ⟨crcByteSerial_eq_crcByteUpdate, foldl_crcByteSerial⟩

/-! ### The residue (R88, R90) -/

/-- The bit that falls out can be seen at the top: the polynomial has its highest bit set. -/
theorem getLsbD_crcShift_fifteen (c : Word) : (crcShift c).getLsbD 15 = c.getLsbD 0 := by
  have htop : (c >>> 1).getLsbD 15 = false := by
    rw [BitVec.getLsbD_ushiftRight]
    exact BitVec.getLsbD_of_ge c _ (by decide)
  rw [crcShift]
  split
  · next hout => rw [BitVec.getLsbD_xor, htop, hout]; rfl
  · next hout => rw [htop, Bool.eq_false_iff.mpr hout]

theorem crcShift_injective : Function.Injective crcShift := by
  intro c d h
  have hbit : c.getLsbD 0 = d.getLsbD 0 := by rw [← getLsbD_crcShift_fifteen, h, getLsbD_crcShift_fifteen]
  have hrest : c >>> 1 = d >>> 1 := by
    rw [crcShift, crcShift, hbit] at h
    split at h
    · exact BitVec.xor_left_inj _ |>.mp h
    · exact h
  refine BitVec.eq_of_getLsbD_eq fun i _ => ?_
  cases i with
  | zero => exact hbit
  | succ i => simpa [Nat.add_comm] using congrArg (·.getLsbD i) hrest

theorem crcByteUpdate_injective (b : Byte) : Function.Injective (crcByteUpdate · b) := by
  intro c d h
  simp only [crcByteUpdate_eq] at h
  exact BitVec.xor_left_inj _ |>.mp (crcShift_injective.iterate 8 h)

/-- A word shifted by a byte is its high byte. -/
theorem ushiftRight_eight (v : Word) : v >>> 8 = (hiByte v).setWidth 16 := by
  ext i hi
  have hbound : v.getLsbD (8 + i) = true → i < 8 := fun h => by have := BitVec.lt_of_getLsbD h; omega
  simpa [hiByte] using hbound

/-- Feeding the low byte of a word shifts it out. -/
theorem crcByteUpdate_wordOf (hi lo : Byte) : crcByteUpdate (wordOf hi lo) lo = hi.setWidth 16 := by
  have hindex : loByte (wordOf hi lo ^^^ lo.setWidth 16) = 0#8 := by
    ext i h
    simp [loByte, wordOf]
  have hhigh : wordOf hi lo >>> 8 = hi.setWidth 16 := by rw [ushiftRight_eight, hiByte_wordOf]
  rw [crcByteUpdate, hindex, hhigh, crcEntry_zero, BitVec.xor_zero]

/-- Only the register that holds the byte itself is updated to 0. -/
theorem crcByteUpdate_eq_zero_iff (c : Word) (b : Byte) : crcByteUpdate c b = 0 ↔ c = b.setWidth 16 := by
  have h0 : crcByteUpdate (wordOf 0 b) b = 0 := crcByteUpdate_wordOf 0 b
  have hword : wordOf 0 b = b.setWidth 16 := BitVec.zero_or
  rw [← hword, ← h0]
  exact (crcByteUpdate_injective b).eq_iff

/-- The CRC of a body with two more bytes is 0 exactly when they spell the CRC of the body, low byte first. -/
theorem crc16_append_eq_zero_iff (body : List Byte) (lo hi : Byte) :
    crc16 (body ++ [lo, hi]) = 0 ↔ crc16 body = wordOf hi lo := by
  calc crc16 (body ++ [lo, hi]) = 0 ↔ crcByteUpdate (crcByteUpdate (crc16 body) lo) hi = 0 := by
        rw [crc16, List.foldl_append]; rfl
    _ ↔ crcByteUpdate (crc16 body) lo = crcByteUpdate (wordOf hi lo) lo := by
        rw [crcByteUpdate_eq_zero_iff, crcByteUpdate_wordOf]
    _ ↔ crc16 body = wordOf hi lo := (crcByteUpdate_injective lo).eq_iff

/-- A frame of at least two bytes is its body and its trailer. -/
theorem take_append_trailer (f : List Byte) (h : 2 ≤ f.length) :
    f.take (f.length - 2) ++ [f.getD (f.length - 2) 0, f.getD (f.length - 1) 0] = f := by
  have htrailer : f.drop (f.length - 2) = [f.getD (f.length - 2) 0, f.getD (f.length - 1) 0] := by
    rw [List.getD_eq_getElem _ _ (by omega), List.getD_eq_getElem _ _ (by omega),
      List.drop_eq_getElem_cons (by omega), List.drop_eq_getElem_cons (by omega), List.drop_of_length_le (by omega)]
    simp only [show f.length - 2 + 1 = f.length - 1 by omega]
  rw [← htrailer, List.take_append_drop]

/-- Settles O8: by `crc16_append_eq_zero_iff`, for the body with its own trailer and for a frame cut at its trailer. -/
theorem crcResidueIsZeroExactlyForGoodFrames : Obligations.CrcResidueIsZeroExactlyForGoodFrames := by
  unfold Obligations.CrcResidueIsZeroExactlyForGoodFrames
  refine ⟨fun body => ?_, fun f hf => ?_⟩
  · exact (crc16_append_eq_zero_iff ..).mpr (wordOf_hiByte_loByte _).symm
  · have h := crc16_append_eq_zero_iff (f.take (f.length - 2)) (f.getD (f.length - 2) 0) (f.getD (f.length - 1) 0)
    rwa [take_append_trailer f hf] at h

/-! ### The CRC unit (R93) -/

/-- Operations that update the CRC register alone, one after the other: the register is folded, the rest stays. -/
theorem foldl_setCrc {α : Type} (g : Word → α → Word) (l : List α) (s : State) :
    l.foldl (fun t x => t.setCrc (g t.crc x)) s = s.setCrc (l.foldl g s.crc) := by
  induction l generalizing s with
  | nil => rfl
  | cons x l ih => rw [List.foldl_cons, ih]; rfl

/-- Eight CRC_BIT operations, the byte's least significant bit first, are one bit-serial byte update. -/
theorem foldl_crcBit (b : Byte) (s : State) :
    (List.range 8).foldl (fun t j => crcBit (b.getLsbD j) t) s = s.setCrc (crcByteSerial s.crc b) :=
  foldl_setCrc (fun c j => crcBitUpdate c (b.getLsbD j)) (List.range 8) s

/-- A computation by bits leaves what one by bytes leaves. -/
theorem foldl_crcBit_crcInit (body : List Byte) (s : State) :
    body.foldl (fun t x => (List.range 8).foldl (fun u j => crcBit (x.getLsbD j) u) t) (crcInit s) =
      s.setCrc (crc16 body) := by
  simp only [foldl_crcBit]
  rw [foldl_setCrc crcByteSerial, crcInit_crc, foldl_crcByteSerial]
  rfl

theorem crcCheck_iff (lo hi : Byte) (s : State) : crcCheck lo hi s = true ↔ s.crc = wordOf hi lo := beq_iff_eq

/-- Settles O10: each operation by its definition, the computations by `crcCompute_eq` and by bits. -/
theorem crcUnitOperations : Obligations.CrcUnitOperations := by
  unfold Obligations.CrcUnitOperations
  intro s b lo hi d body
  exact ⟨rfl, rfl, rfl, rfl, crcCheck_iff lo hi s, crcCompute_eq body s, foldl_crcBit_crcInit body s⟩

/-! ### The reference values (R91) -/

/-- Settles O9: each value is evaluated. -/
theorem crcReferenceValues : Obligations.CrcReferenceValues := ⟨rfl, rfl, rfl⟩

end Sys2Proof.Machine

/-!
The family 42_frame_codec.md: the packer, the envelopes, and how a poll ends.

`bitAt_packBits` and `be16_packWords` say where the packer puts each bit and each word, from which the round trips
follow. `serialFrame_drops_or_runs` and `socketFrame_drops_or_runs` say once what can become of a frame, decided by the
frame and the configuration; the bound on a response and the joining of fragments rest on them.
-/
namespace Sys2Proof.Machine

/-! ### Packing bits (R109, R110) -/

theorem packByte_cons (v : Bool) (bits : List Bool) :
    packByte (v :: bits) = (packByte bits <<< 1) ||| (if v then 1 else 0) := rfl

/-- Bit j of a packed byte is the j-th of the bits, and 0 where there is none. -/
theorem getLsbD_packByte (bits : List Bool) (j : Nat) (hj : j < 8) : (packByte bits).getLsbD j = bits.getD j false := by
  induction bits generalizing j with
  | nil => simp [packByte]
  | cons v bits ih =>
    rw [packByte_cons, BitVec.getLsbD_or]
    cases j with
    | zero => cases v <;> simp
    | succ j =>
      have hv : (if v then 1 else 0 : Byte).getLsbD (j + 1) = false := by cases v <;> simp
      rw [hv, Bool.or_false, List.getD_cons_succ, ← ih j (by omega), BitVec.getLsbD_shiftLeft]
      simp [hj]

/-- Byte i of a packed bit string packs the eight bits from index 8 i, and there is no byte past the last bit. -/
theorem getD_packBits (vs : List Bool) (i : Nat) : (packBits vs).getD i 0 = packByte ((vs.drop (8 * i)).take 8) := by
  by_cases hi : i < ceilDiv vs.length 8
  · simp [packBits, List.getD, hi]
  · have hdrop : vs.drop (8 * i) = [] := List.drop_eq_nil_of_le (by rw [ceilDiv] at hi; omega)
    rw [List.getD_eq_default _ _ (by simpa using hi), hdrop]
    rfl

/-- Every bit of a packed bit string, the padding included (R109). -/
theorem bitAt_packBits (vs : List Bool) (j : Nat) : bitAt (packBits vs) j = vs.getD j false := by
  have hmod : j % 8 < 8 := Nat.mod_lt _ (by decide)
  rw [bitAt, getD_packBits, getLsbD_packByte _ _ hmod, List.getD, List.getElem?_take_of_lt hmod, List.getElem?_drop,
    Nat.div_add_mod, List.getD]

/-- Settles O12: the three clauses are `length_packBits` and `bitAt_packBits` within and past the sequence. -/
theorem packBitsPlacesEveryBit : Obligations.PackBitsPlacesEveryBit := by
  unfold Obligations.PackBitsPlacesEveryBit
  intro vs
  refine ⟨length_packBits vs, fun j hj => ?_, fun j hj _ => ?_⟩
  · have hbit : vs.getD j false = vs[j] := List.getD_eq_getElem vs false hj
    rw [← bitAt, bitAt_packBits, hbit, List.getElem?_eq_getElem hj]
  · rw [← bitAt, bitAt_packBits, List.getD_eq_default _ _ hj]

/-- Data that is long enough is unpacked bit by bit. -/
theorem unpackBits_of_le {d : List Byte} {n : Nat} (h : n ≤ 8 * d.length) :
    unpackBits d n = some ((List.range n).map (bitAt d)) := by
  rw [unpackBits_eq, if_neg (not_lt.mpr h)]

theorem unpackBits_eq_none_iff (d : List Byte) (n : Nat) : unpackBits d n = none ↔ 8 * d.length < n := by
  simp [unpackBits_eq]

/-- Settles O13: the packed bytes hold enough bits, and each bit is read where it was placed. -/
theorem bitPackingRoundTrip : Obligations.BitPackingRoundTrip := by
  unfold Obligations.BitPackingRoundTrip
  intro vs
  have hroom : vs.length ≤ 8 * (packBits vs).length := by rw [length_packBits, ceilDiv]; omega
  rw [unpackBits_of_le hroom]
  refine congrArg some (List.ext_getElem (by simp) fun j _ hj => ?_)
  rw [List.getElem_map, List.getElem_range, bitAt_packBits, List.getD_eq_getElem _ _ hj]

/-! ### Packing words (R111, R112) -/

theorem packWords_cons (v : Word) (vs : List Word) : packWords (v :: vs) = hiByte v :: loByte v :: packWords vs := rfl

/-- Word j stands at offset 2 j, high byte first (R111). -/
theorem be16_packWords (vs : List Word) (j : Nat) (hj : j < vs.length) : be16 (packWords vs) (2 * j) = vs[j] := by
  induction vs generalizing j with
  | nil => cases hj
  | cons v vs ih =>
    rw [packWords_cons]
    cases j with
    | zero => exact wordOf_hiByte_loByte v
    | succ j => exact ih j (Nat.lt_of_succ_lt_succ hj)

/-- Settles O16: the two bytes of word j are the field at offset 2 j. -/
theorem packWordsPlacesEveryByte : Obligations.PackWordsPlacesEveryByte := by
  unfold Obligations.PackWordsPlacesEveryByte
  intro vs
  refine ⟨length_packWords vs, fun j hj => ?_⟩
  rw [← be16, be16_packWords vs j hj, List.getElem?_eq_getElem hj]

/-- Data that is long enough is unpacked word by word. -/
theorem unpackWords_of_le {d : List Byte} {n : Nat} (h : 2 * n ≤ d.length) :
    unpackWords d n = some ((List.range n).map fun j => be16 d (2 * j)) := by
  rw [unpackWords, if_neg (not_lt.mpr h)]

theorem unpackWords_eq_none_iff (d : List Byte) (n : Nat) : unpackWords d n = none ↔ d.length < 2 * n := by
  simp [unpackWords]

/-- Settles O14: the packed bytes are exactly enough, and each word is read where it was placed. -/
theorem wordPackingRoundTrip : Obligations.WordPackingRoundTrip := by
  unfold Obligations.WordPackingRoundTrip
  intro vs
  rw [unpackWords_of_le (length_packWords vs).ge]
  refine congrArg some (List.ext_getElem (by simp) fun j _ hj => ?_)
  rw [List.getElem_map, List.getElem_range, be16_packWords vs j hj]

/-! ### Unpacking (R110, R112) -/

theorem unpackBits_append {d : List Byte} {n : Nat} (h : n ≤ 8 * d.length) (extra : List Byte) :
    unpackBits (d ++ extra) n = unpackBits d n := by
  rw [unpackBits_of_le h, unpackBits_of_le (by rw [List.length_append]; omega)]
  refine congrArg some (List.map_congr_left fun j hj => ?_)
  have hbyte : j / 8 < d.length := by have := List.mem_range.mp hj; omega
  rw [bitAt, bitAt, List.getD_append _ _ _ _ hbyte]

theorem unpackWords_append {d : List Byte} {n : Nat} (h : 2 * n ≤ d.length) (extra : List Byte) :
    unpackWords (d ++ extra) n = unpackWords d n := by
  rw [unpackWords_of_le h, unpackWords_of_le (by rw [List.length_append]; omega)]
  refine congrArg some (List.map_congr_left fun j hj => ?_)
  have hj := List.mem_range.mp hj
  rw [be16, be16, List.getD_append _ _ _ _ (by omega), List.getD_append _ _ _ _ (by omega)]

/-- Bit j of the data in the form of R110: the byte shifted right, its lowest bit. -/
theorem bitAt_eq_shifted (d : List Byte) (j : Nat) : bitAt d j = ((d.getD (j / 8) 0) >>> (j % 8)).getLsbD 0 := by
  rw [bitAt, BitVec.getLsbD_ushiftRight, Nat.add_zero]

theorem getElem?_unpackBits {d : List Byte} {n j : Nat} {vs : List Bool} (h : unpackBits d n = some vs) (hj : j < n) :
    vs[j]? = some (bitAt d j) := by
  have hlen : n ≤ 8 * d.length := by
    by_contra hshort
    rw [(unpackBits_eq_none_iff d n).mpr (not_le.mp hshort)] at h
    cases h
  cases (unpackBits_of_le hlen).symm.trans h
  simp [hj]

theorem getElem?_unpackWords {d : List Byte} {n j : Nat} {vs : List Word} (h : unpackWords d n = some vs) (hj : j < n) :
    vs[j]? = some (be16 d (2 * j)) := by
  have hlen : 2 * n ≤ d.length := by
    by_contra hshort
    rw [(unpackWords_eq_none_iff d n).mpr (not_le.mp hshort)] at h
    cases h
  cases (unpackWords_of_le hlen).symm.trans h
  simp [hj]

/-- Settles O15, clause by clause, first for bits and then for words. -/
theorem unpackingTakesTheFirstValues : Obligations.UnpackingTakesTheFirstValues := by
  unfold Obligations.UnpackingTakesTheFirstValues
  intro d extra n
  refine ⟨unpackBits_eq_none_iff d n, unpackWords_eq_none_iff d n, fun vs h => ?_, fun vs h => ?_,
    fun h => unpackBits_append h extra, fun h => unpackWords_append h extra⟩
  · refine ⟨length_of_unpackBits h, fun j hj => ?_⟩
    rw [getElem?_unpackBits h hj, bitAt_eq_shifted]
  · exact ⟨length_of_unpackWords h, fun j hj => getElem?_unpackWords h hj⟩

/-! ### The serial check (R96, R98) -/

/-- A frame passes exactly when its CRC, trailer included, is 0. -/
theorem serialCrcOk_iff_crc16_eq_zero {f : List Byte} (h : 2 ≤ f.length) (s : State) :
    serialCrcOk f s = true ↔ crc16 f = 0 := by
  obtain ⟨-, hresidue⟩ := crcResidueIsZeroExactlyForGoodFrames
  rw [serialCrcOk_eq, beq_iff_eq, hresidue f h]

/-- Settles O11: a register of 0 stays 0 when the byte 0x00 is fed. -/
theorem trailingZeroByteKeepsTheCrcGood : Obligations.TrailingZeroByteKeepsTheCrcGood := by
  unfold Obligations.TrailingZeroByteKeepsTheCrcGood
  intro f s hlen hok
  have hzero : crc16 f = 0 := (serialCrcOk_iff_crc16_eq_zero hlen s).mp hok
  refine (serialCrcOk_iff_crc16_eq_zero (by rw [List.length_append]; omega) s).mpr ?_
  calc crc16 (f ++ [0x00]) = crcByteUpdate (crc16 f) 0x00 := by rw [crc16, List.foldl_append]; rfl
    _ = 0 := (crcByteUpdate_eq_zero_iff ..).mpr hzero

/-! ### What the decoder refuses (R115, R130) -/

theorem decode_of_long {pay : List Byte} (fc : Byte) (h : 4 ≤ pay.length) : ∃ i, decode (fc :: pay) = .ok i := by
  cases hs : isSupported fc with
  | false => exact ⟨_, decode_of_unsupported hs pay⟩
  | true =>
    obtain rfl | rfl | rfl | rfl | rfl | rfl | rfl | rfl := (isSupported_iff fc).mp hs
    · exact ⟨_, decode_readCoils h⟩
    · exact ⟨_, decode_readDiscreteInputs h⟩
    · exact ⟨_, decode_readHoldingRegisters h⟩
    · exact ⟨_, decode_readInputRegisters h⟩
    · exact ⟨_, decode_writeSingleCoil h⟩
    · exact ⟨_, decode_writeSingleRegister h⟩
    · exact ⟨_, decode_writeMultipleCoils h⟩
    · exact ⟨_, decode_writeMultipleRegisters h⟩

/-- Settles O4: the two refusals by their equations; a PDU that is neither decodes. -/
theorem decoderRefusesExactlyShortPdus : Obligations.DecoderRefusesExactlyShortPdus := by
  unfold Obligations.DecoderRefusesExactlyShortPdus
  intro p
  constructor
  · rintro ⟨e, he⟩
    cases p with
    | nil => exact .inl rfl
    | cons fc pay =>
      refine .inr ⟨fc, pay, rfl, ?_, ?_⟩
      · by_contra hs
        cases (decode_of_unsupported (Bool.eq_false_iff.mpr hs) pay).symm.trans he
      · by_contra hlen
        obtain ⟨i, hi⟩ := decode_of_long fc (not_lt.mp hlen)
        cases hi.symm.trans he
  · rintro (rfl | ⟨fc, pay, rfl, hs, hlen⟩)
    · exact ⟨_, rfl⟩
    · exact ⟨_, decode_of_short hs hlen⟩

/-! ### The envelope of a response (R106, R107) -/

/-- A response is emitted as it was built, and the return leaves it in TX. -/
theorem tx_respond (fcr : Byte) (p : List Byte) (s : State) : (respond fcr p s).tx = responseFrame s fcr p := by
  rw [← returnToIdle_tx, returnToIdle_respond]
  rfl

theorem outcomes_respond (fcr : Byte) (p : List Byte) (s : State) :
    (respond fcr p s).outcomes = s.outcomes ++ [.emit (responseFrame s fcr p)] := by
  rw [← returnToIdle_outcomes, returnToIdle_respond]
  rfl

theorem responseFrame_serial {s : State} (ht : s.cfg.transport = .serial) (fcr : Byte) (p : List Byte) :
    responseFrame s fcr p = serialFrameOf s.latches.sid (fcr :: p) := by
  rw [responseFrame, ht]
  rfl

theorem responseFrame_socket {s : State} (ht : s.cfg.transport = .socket) (fcr : Byte) (p : List Byte) :
    responseFrame s fcr p = socketFrameOf s.latches.txn s.latches.sid (fcr :: p) := by
  rw [responseFrame, ht]
  simp [socketFrameOf]

/-- Settles O31: the emitted frame is the one in TX, and that is `responseFrame`. -/
theorem responseEnvelopes : Obligations.ResponseEnvelopes := by
  unfold Obligations.ResponseEnvelopes
  intro fcr p s
  refine ⟨fun ht => ?_, fun ht => ?_, by rw [outcomes_respond, tx_respond]⟩
  · rw [tx_respond, responseFrame, ht]
  · rw [tx_respond, responseFrame, ht]

/-! ### The step on an accepted frame -/

/-- Settles O35: the accepted frame's step, its start state written out. -/
theorem serialStepRunsTheDecodedInstruction : Obligations.SerialStepRunsTheDecodedInstruction := by
  unfold Obligations.SerialStepRunsTheDecodedInstruction
  intro s chunk rest f i hfault ht hp hbuf hlen hcrc hsid hdec
  rw [step_of_accepted_serialFrame hfault ht hp hbuf.symm hlen hcrc hsid hdec, serialAccepted_eq]
  rfl

/-- Settles O36: the same on a socket. -/
theorem socketStepRunsTheDecodedInstruction : Obligations.SocketStepRunsTheDecodedInstruction := by
  unfold Obligations.SocketStepRunsTheDecodedInstruction
  intro s r rest i hfault ht hp hlen hmax hlenf hall hsid hdec
  rw [step_of_accepted_socketFrame hfault ht hp hlen hmax hlenf hall hsid hdec]
  rfl

/-! ### The echo of a single write (R103) -/

/-- A request that gets no exception has its range in the table and a legal value. -/
theorem inRange_of_exceptionOf_eq_none {c : Config} {i : Instr} {k : TableKind} {addr n : Nat}
    (hr : rangeOf i = some (k, addr, n)) (h : exceptionOf c i = none) : InRange c k addr n ∧ valueIllegal i = false := by
  have hin : InRange c k addr n := by
    by_contra hout
    cases (exceptionOf_outside hr hout).symm.trans h
  refine ⟨hin, Bool.eq_false_iff.mpr fun hv => ?_⟩
  cases (exceptionOf_illegal hr hin hv).symm.trans h

/-- A single write in range answers with its two fields (R126, R127). -/
theorem conclude_writeSingle {k : TableKind} {addr : Word} {s : State} (hin : InRange s.cfg k addr.toNat 1) (v : k.Cell)
    (qty : Word) (fc : Byte) (f : Fsm) :
    conclude fc (writeSingle k addr (some v) (beginOperation f addr qty s)) =
      answered s (s.mem.setCells k ((s.mem.cells k).set (cellIndex s.cfg k addr.toNat) v))
        { s.latches with addr := addr, qty := qty } fc (toBE16 addr ++ toBE16 qty) := by
  rw [writeSingle_success (s := beginOperation f addr qty s) hin v, conclude_reply]
  rfl

section
variable {addr value : Word} {s : State}

theorem exec_writeSingleCoil_success (h : exceptionOf s.cfg (.writeSingleCoil addr value) = none) :
    ∃ m l, exec (.writeSingleCoil addr value) s = .next (answered s m l 0x05 (toBE16 addr ++ toBE16 value)) := by
  obtain ⟨hin, hv⟩ := inRange_of_exceptionOf_eq_none rfl h
  have hsome : (coilValue value).isNone = false := (isNone_coilValue value).symm.trans hv
  obtain ⟨v, hv⟩ := Option.isSome_iff_exists.mp (Option.isNone_eq_false_iff.mp hsome)
  have hans := conclude_writeSingle hin v value 0x05 .writeSingle
  rw [← hv] at hans
  exact ⟨_, _, congrArg _ hans⟩

theorem exec_writeSingleRegister_success (h : exceptionOf s.cfg (.writeSingleRegister addr value) = none) :
    ∃ m l, exec (.writeSingleRegister addr value) s = .next (answered s m l 0x06 (toBE16 addr ++ toBE16 value)) := by
  obtain ⟨hin, -⟩ := inRange_of_exceptionOf_eq_none rfl h
  exact ⟨_, _, congrArg _ (conclude_writeSingle hin value value 0x06 .writeSingle)⟩

end

/-- The answer to a successful single write carries the first four bytes of the request's payload. -/
theorem exec_singleWrite_echoes {fc : Byte} {pay : List Byte} {i : Instr} {s : State}
    (hfc : fc ∈ ([0x05, 0x06] : List Byte)) (hdec : decode (fc :: pay) = .ok i) (h : exceptionOf s.cfg i = none) :
    ∃ m l, exec i s = .next (answered s m l fc (pay.take 4)) := by
  have hfc : fc = 0x05 ∨ fc = 0x06 := by simpa using hfc
  have hsup : isSupported fc = true := by obtain rfl | rfl := hfc <;> rfl
  obtain ⟨hlen, -⟩ := decode_supported_cases hsup hdec
  rw [← fields_spell_payload pay hlen]
  obtain rfl | rfl := hfc
  · cases (decode_writeSingleCoil hlen).symm.trans hdec
    exact exec_writeSingleCoil_success h
  · cases (decode_writeSingleRegister hlen).symm.trans hdec
    exact exec_writeSingleRegister_success h

/-- Server id, function code and payload are what a serial frame holds before its trailer (R52). -/
theorem cons_cons_slice_eq_take {f : List Byte} (h : 4 ≤ f.length) :
    f.getD 0 0 :: f.getD 1 0 :: slice f 2 (f.length - 2) = f.take (f.length - 2) := by
  match f, h with
  | a :: b :: c :: d :: rest, _ => simp [slice]

/-- A serial frame with a good trailer is the envelope of its own parts (R52). -/
theorem serialFrameOf_parts {f : List Byte} (hlen : 4 ≤ f.length)
    (hcrc : crc16 (f.take (f.length - 2)) = wordOf (f.getD (f.length - 1) 0) (f.getD (f.length - 2) 0)) :
    serialFrameOf (f.getD 0 0) (f.getD 1 0 :: slice f 2 (f.length - 2)) = f := by
  calc serialFrameOf (f.getD 0 0) (f.getD 1 0 :: slice f 2 (f.length - 2))
      = f.take (f.length - 2) ++ toLE16 (crc16 (f.take (f.length - 2))) := by
        rw [serialFrameOf, cons_cons_slice_eq_take hlen]
    _ = f.take (f.length - 2) ++ [f.getD (f.length - 2) 0, f.getD (f.length - 1) 0] := by
        rw [hcrc, toLE16, loByte_wordOf, hiByte_wordOf]
    _ = f := take_append_trailer f (by omega)

/-- A 12-byte socket frame with protocol id 0 and LENF = 6 is the envelope of its own parts (R53). -/
theorem socketFrameOf_parts {f : List Byte} (hlen : f.length = 12) (hproto : be16 f 2 = 0) (hlenf : be16 f 4 = 6) :
    socketFrameOf (be16 f 0) (f.getD 6 0) (f.getD 7 0 :: slice f 8 12) = f := by
  match f, hlen with
  | [a, b, c, d, x, y, sid, fc, p, q, r, t], _ =>
    obtain ⟨rfl, rfl⟩ : c = 0 ∧ d = 0 := wordOf_inj hproto
    obtain ⟨rfl, rfl⟩ : x = 0 ∧ y = 6 := wordOf_inj hlenf
    have htxn : toBE16 (be16 [a, b, 0, 0, 0, 6, sid, fc, p, q, r, t] 0) = [a, b] := by
      rw [be16_cons_cons, toBE16, hiByte_wordOf, loByte_wordOf]
    rw [socketFrameOf, htxn]
    simp [slice, toBE16, hiByte, loByte]

section
variable (f : List Byte) (s : State)

@[simp] theorem serialAccepted_cfg : (serialAccepted f s).cfg = s.cfg := by rw [serialAccepted_eq]

@[simp] theorem serialAccepted_outcomes : (serialAccepted f s).outcomes = s.outcomes := by rw [serialAccepted_eq]

@[simp] theorem serialAccepted_sid : (serialAccepted f s).latches.sid = f.getD 0 0 := by rw [serialAccepted_eq]

end

/-- A step that ends in the answer (fcr, p) given from the state u emits that response and nothing else. -/
theorem step_emits_of_answered {s u : State} {i : Instr} {fcr : Byte} {p g : List Byte}
    (hstep : step s = endPoll (exec i u)) (hout : u.outcomes = s.outcomes)
    (hexec : ∃ m l, exec i u = .next (answered u m l fcr p)) (hg : responseFrame u fcr p = g) :
    ∃ t, step s = .next t ∧ t.outcomes = s.outcomes ++ [.emit g] := by
  obtain ⟨m, l, hexec⟩ := hexec
  refine ⟨_, by rw [hstep, hexec]; rfl, ?_⟩
  rw [← hout, ← hg]
  rfl

/-- Settles O41: the answer carries PAY[0..4), and a request with no more payload than that is its own parts in the
envelope. -/
theorem singleWriteEchoesTheRequest : Obligations.SingleWriteEchoesTheRequest := by
  unfold Obligations.SingleWriteEchoesTheRequest
  intro s f rest i hfault hrx hp hlen hmax hexc hcode
  refine ⟨fun ht hcrc hsid hdec => ?_, fun ht hlenf hall hsid hdec => ?_⟩
  · rw [ht, frameCode] at hcode
    have hstep := step_of_accepted_serialFrame hfault ht hp (by rw [hrx]; rfl) hlen hcrc hsid hdec
    have hexec := exec_singleWrite_echoes hcode hdec (s := serialAccepted f ((s.setPolls rest).setRxbuf []))
      (by simpa using hexc)
    obtain ⟨t, hnext, hout⟩ := step_emits_of_answered hstep (by simp) hexec (responseFrame_serial (by simpa using ht) ..)
    rw [serialAccepted_sid, hsid] at hout
    refine ⟨t, hnext, hout, fun h8 => ?_⟩
    have hpay : (slice f 2 (f.length - 2)).take 4 = slice f 2 (f.length - 2) :=
      List.take_of_length_le (by rw [length_slice]; omega)
    rw [hout, hpay, ← hsid, serialFrameOf_parts (by omega) hcrc]
  · rw [ht, frameCode] at hcode
    have hstep := step_of_accepted_socketFrame hfault ht hp hlen (hmax ht) hlenf hall hsid hdec
    have hexec := exec_singleWrite_echoes hcode hdec (s := socketAccepted f (s.setPolls rest)) hexc
    have hframe : responseFrame (socketAccepted f (s.setPolls rest)) (f.getD 7 0)
        ((slice f 8 (6 + (be16 f 4).toNat)).take 4) =
          socketFrameOf (be16 f 0) (f.getD 6 0) (f.getD 7 0 :: (slice f 8 (6 + (be16 f 4).toNat)).take 4) :=
      responseFrame_socket (s := socketAccepted f (s.setPolls rest)) ht ..
    obtain ⟨t, hnext, hout⟩ := step_emits_of_answered hstep rfl hexec hframe
    refine ⟨t, hnext, hsid ▸ hout, fun hproto h6 h12 => ?_⟩
    have hend : 6 + (be16 f 4).toNat = 12 := by rw [h6]; rfl
    have hpay : (slice f 8 12).take 4 = slice f 8 12 := List.take_of_length_le (by rw [length_slice]; omega)
    rw [hout, hend, hpay, socketFrameOf_parts h12 hproto h6]

/-! ### The outcome of a poll (R94, R99, R116) -/

/-- Settles O42: a poll's one outcome by `step_survives`, and with no poll the state is held. -/
theorem everyPollHasExactlyOneOutcome : Obligations.EveryPollHasExactlyOneOutcome := by
  unfold Obligations.EveryPollHasExactlyOneOutcome
  intro s t h
  obtain ⟨hfault, -⟩ := step_cases h
  refine ⟨fun hp => ?_, fun hp => ?_⟩
  · cases (step_of_no_poll hfault hp).symm.trans h
    rfl
  · obtain ⟨u, p, b, hu, hs, -, -⟩ := step_survives hfault hp
    cases hu.symm.trans h
    exact hs.outcomes

/-! ### What becomes of a frame -/

/-- What the handling of a frame writes before it is dropped or its instruction runs: transient state alone
(10_state.md R15). -/
def State.withTransient (s : State) (w : Word) (x : Fsm) (l : Latches) : State :=
  { s with crc := w, fsm := x, latches := l }

/-- The run drops its frame, from every state with configuration c. -/
def DropsFrame (c : Config) (run : State → Host.Outcome State Fault Refusal) : Prop :=
  ∀ s, s.cfg = c → ∃ w x l, run s = .next (dropFrame (s.withTransient w x l))

/-- The run is that of instruction i with SID latched, from every state with configuration c. -/
def RunsInstr (c : Config) (sid : Byte) (i : Instr) (run : State → Host.Outcome State Fault Refusal) : Prop :=
  ∀ s, s.cfg = c → ∃ w x l, run s = exec i (s.withTransient w x l) ∧ l.sid = sid

/-- A run that dispatches a given PDU drops it when it does not decode, and else runs the instruction it spells (R115). -/
theorem drops_or_runs_of_dispatch {c : Config} {sid fc : Byte} {pay : List Byte}
    {run : State → Host.Outcome State Fault Refusal}
    (h : ∀ s, s.cfg = c →
      ∃ w l, run s = dispatchPdu (s.withTransient w s.fsm l) ∧ l.sid = sid ∧ l.fc = fc ∧ l.pay = pay) :
    DropsFrame c run ∨ ∃ i, RunsInstr c sid i run := by
  cases hdec : decode (fc :: pay) with
  | ok i =>
    refine .inr ⟨i, fun s hc => ?_⟩
    obtain ⟨w, l, hrun, hsid, hfc, hpay⟩ := h s hc
    have hdec : decode ((s.withTransient w s.fsm l).latches.fc :: (s.withTransient w s.fsm l).latches.pay) = .ok i := by
      rw [← hdec, ← hfc, ← hpay]; rfl
    exact ⟨w, s.fsm, l, by rw [hrun, dispatchPdu_of_decode hdec], hsid⟩
  | error e =>
    refine .inl fun s hc => ?_
    obtain ⟨w, l, hrun, -, hfc, hpay⟩ := h s hc
    have hdec : decode ((s.withTransient w s.fsm l).latches.fc :: (s.withTransient w s.fsm l).latches.pay) =
        .error e := by rw [← hdec, ← hfc, ← hpay]; rfl
    exact ⟨w, .idle, l, by rw [hrun, dispatchPdu_of_error hdec]; rfl⟩

/-- Whether a serial frame is dropped, and which instruction it runs if not, is decided by the frame and the
configuration (R96, R97). -/
theorem serialFrame_drops_or_runs (c : Config) (f : List Byte) :
    DropsFrame c (serialFrame f) ∨ ∃ i, RunsInstr c (f.getD 0 0) i (serialFrame f) := by
  by_cases hcrc : crc16 (f.take (f.length - 2)) = wordOf (f.getD (f.length - 1) 0) (f.getD (f.length - 2) 0)
  · by_cases hsid : f.getD 0 0 = c.serverId
    · refine drops_or_runs_of_dispatch (fc := f.getD 1 0) (pay := slice f 2 (f.length - 2)) ?_
      rintro s rfl
      refine ⟨crc16 (f.take (f.length - 2)),
        { s.latches with sid := f.getD 0 0, fc := f.getD 1 0, pay := slice f 2 (f.length - 2) }, ?_, rfl, rfl, rfl⟩
      rw [serialFrame_eq, if_neg (not_not.mpr hcrc), if_neg (not_not.mpr hsid), serialAccepted_eq]
      rfl
    · refine .inl ?_
      rintro s rfl
      exact ⟨_, s.fsm, _, by rw [serialFrame_eq, if_neg (not_not.mpr hcrc), if_pos hsid]; rfl⟩
  · exact .inl fun s _ => ⟨_, s.fsm, s.latches, by rw [serialFrame_eq, if_pos hcrc]; rfl⟩

/-- The same for a socket frame (R100, R101). -/
theorem socketFrame_drops_or_runs (c : Config) (r : List Byte) :
    DropsFrame c (socketFrame r) ∨ ∃ i, RunsInstr c (r.getD 6 0) i (socketFrame r) := by
  by_cases hlen : (be16 r 4).toNat < 2 ∨ r.length < 6 + (be16 r 4).toNat
  · exact .inl fun s _ => ⟨s.crc, s.fsm, _, by rw [socketFrame, if_pos hlen]; rfl⟩
  · by_cases hsid : r.getD 6 0 = c.serverId
    · refine drops_or_runs_of_dispatch (fc := r.getD 7 0) (pay := slice r 8 (6 + (be16 r 4).toNat)) ?_
      rintro s rfl
      refine ⟨s.crc, (socketAccepted r s).latches, ?_, rfl, rfl, rfl⟩
      rw [socketFrame, if_neg hlen, if_neg (not_not.mpr hsid)]
      rfl
    · refine .inl ?_
      rintro s rfl
      exact ⟨s.crc, s.fsm, _, by rw [socketFrame, if_neg hlen, if_pos hsid]; rfl⟩

/-! ### The size of a response (R102 to R104, R131) -/

/-- The handler answers, and with a payload of at most 256 bytes: a byte count and the 255 bytes it can count (R102). -/
def Handled.AnswersInBounds : Handled → Prop
  | .reply r s => (replyPayload s.latches r).length ≤ 256
  | .exception _ _ => True
  | .contractFault _ _ => False

/-- A read answers a byte count and the data it was checked for (R131). -/
theorem readTable_inBounds {k : TableKind} {pack : List k.Cell → List Byte} {n : Nat} {addr qty : Word}
    (hpack : ∀ vs, vs.length ≤ qty.toNat → (pack vs).length ≤ n) (s : State) :
    (readTable k pack n addr qty s).AnswersInBounds := by
  rw [readTable_eq]
  split
  · trivial
  · split
    · trivial
    · next hn =>
      have hlen := hpack _ (List.length_take_le qty.toNat ((s.mem.cells k).drop (cellIndex s.cfg k addr.toNat)))
      simp only [Handled.AnswersInBounds, replyPayload, List.length_cons]
      omega

/-- A single write acknowledges with four bytes (R103). -/
theorem writeSingle_inBounds (k : TableKind) (addr : Word) (v : Option k.Cell) (s : State) :
    (writeSingle k addr v s).AnswersInBounds := by
  rw [writeSingle_eq]
  split
  · trivial
  · cases v with
    | none => trivial
    | some v => exact (by decide : 4 ≤ 256)

/-- So does a multiple write (R104). -/
theorem writeMultiple_inBounds {k : TableKind} {unpack : List Byte → Nat → Option (List k.Cell)}
    (hu : ∀ d n vs, unpack d n = some vs → vs.length = n) (addr qty : Word) (bc : Byte) (data : List Byte) (s : State) :
    (writeMultiple k unpack addr qty bc data s).AnswersInBounds := by
  rw [writeMultiple_eq k unpack addr qty bc data s hu]
  split
  · trivial
  · cases unpack data qty.toNat with
    | none => trivial
    | some vs => exact (by decide : 4 ≤ 256)

/-- Packing fewer bits takes no more bytes. -/
theorem length_packBits_le {vs : List Bool} {n : Nat} (h : vs.length ≤ n) : (packBits vs).length ≤ ceilDiv n 8 := by
  rw [length_packBits]
  exact Nat.div_le_div_right (by omega)

theorem length_packWords_le {vs : List Word} {n : Nat} (h : vs.length ≤ n) : (packWords vs).length ≤ 2 * n := by
  rw [length_packWords]
  omega

theorem handle_inBounds (i : Instr) (s : State) : (handle i s).AnswersInBounds := by
  cases i with
  | readCoils addr qty => exact readTable_inBounds (fun _ => length_packBits_le) _
  | readDiscreteInputs addr qty => exact readTable_inBounds (fun _ => length_packBits_le) _
  | readHoldingRegisters addr qty => exact readTable_inBounds (fun _ => length_packWords_le) _
  | readInputRegisters addr qty => exact readTable_inBounds (fun _ => length_packWords_le) _
  | writeSingleCoil addr value => exact writeSingle_inBounds ..
  | writeSingleRegister addr value => exact writeSingle_inBounds .hold addr (some value) _
  | writeMultipleCoils addr qty bc data => exact writeMultiple_inBounds (fun _ _ _ => length_of_unpackBits) ..
  | writeMultipleRegisters addr qty bc data => exact writeMultiple_inBounds (fun _ _ _ => length_of_unpackWords) ..
  | unsupported fc => trivial

/-- The most bytes a response has on each transport (30_encoding.md R69). -/
def maxResponse : Transport → Nat
  | .serial => 260
  | .socket => 264

/-- The envelope adds four bytes on the serial transport and eight on a socket. -/
theorem length_responseFrame_le (s : State) (fcr : Byte) {p : List Byte} (hp : p.length ≤ 256) :
    (responseFrame s fcr p).length ≤ maxResponse s.cfg.transport := by
  cases ht : s.cfg.transport with
  | serial =>
    rw [responseFrame_serial ht, length_serialFrameOf, List.length_cons, maxResponse]
    omega
  | socket =>
    rw [responseFrame_socket ht, length_socketFrameOf, List.length_cons, maxResponse]
    omega

theorem length_tx_conclude_le (fc : Byte) {h : Handled} (hb : h.AnswersInBounds) :
    (conclude fc h).tx.length ≤ maxResponse (conclude fc h).cfg.transport := by
  cases h with
  | reply r s => rw [conclude_reply]; exact length_responseFrame_le s fc hb
  | exception c s => rw [conclude_exception]; exact length_responseFrame_le s _ (by simp)
  | contractFault info s => exact hb.elim

/-- u ended with one more outcome than s, and if that is a response it is within the bound. -/
def EndsInBounds (s u : State) : Prop :=
  ∃ o, u.outcomes = s.outcomes ++ [o] ∧ ∀ f, o = .emit f → f.length ≤ maxResponse s.cfg.transport

theorem dropFrame_endsInBounds (s : State) : EndsInBounds s (dropFrame s) := ⟨.drop, rfl, nofun⟩

/-- The response of an instruction is what stands in TX. -/
theorem exec_endsInBounds {i : Instr} {s u : State} (h : exec i s = .next u) : EndsInBounds s u := by
  obtain ⟨m, fcr, p, -, hans⟩ := exec_answers s.cfg s.mem i
  obtain ⟨l, hl⟩ := hans s rfl rfl
  have hu : u = conclude (functionCode i) (handle i s) := by cases (exec_eq_conclude i s).symm.trans h; rfl
  have hlen : u.tx.length ≤ maxResponse u.cfg.transport := hu ▸ length_tx_conclude_le _ (handle_inBounds i s)
  cases hl.symm.trans h
  refine ⟨_, rfl, ?_⟩
  rintro f ⟨⟩
  exact hlen

/-- Whatever becomes of a frame, the response is within the bound. -/
theorem endsInBounds_of_drops_or_runs {c : Config} {sid : Byte} {run : State → Host.Outcome State Fault Refusal}
    (hrun : DropsFrame c run ∨ ∃ i, RunsInstr c sid i run) {s u : State} (hc : s.cfg = c) (h : run s = .next u) :
    EndsInBounds s u := by
  obtain hdrops | ⟨i, hruns⟩ := hrun
  · obtain ⟨w, x, l, hd⟩ := hdrops s hc
    cases hd.symm.trans h
    exact dropFrame_endsInBounds (s.withTransient w x l)
  · obtain ⟨w, x, l, hr, -⟩ := hruns s hc
    exact exec_endsInBounds (s := s.withTransient w x l) (hr.symm.trans h)

theorem serialPoll_endsInBounds {r : List Byte} {s u : State} (h : serialPoll r s = .next u) : EndsInBounds s u := by
  rw [serialPoll_eq] at h
  split at h
  · cases h
    exact ⟨.retain, rfl, nofun⟩
  · exact endsInBounds_of_drops_or_runs (s := s.setRxbuf []) (serialFrame_drops_or_runs s.cfg _) rfl h

theorem socketPoll_endsInBounds {r : List Byte} {s u : State} (h : socketPoll r s = .next u) : EndsInBounds s u := by
  rw [socketPoll] at h
  split at h
  · cases h
    exact dropFrame_endsInBounds s
  · split at h
    · cases h
      exact dropFrame_endsInBounds s
    · exact endsInBounds_of_drops_or_runs (socketFrame_drops_or_runs s.cfg r) rfl h

theorem handlePoll_endsInBounds {r : List Byte} {s u : State} (h : handlePoll r s = .next u) : EndsInBounds s u := by
  rw [handlePoll] at h
  split at h
  · exact serialPoll_endsInBounds h
  · exact socketPoll_endsInBounds h

/-- Settles O44: the emitted frame is the one outcome of the poll, which ends in bounds. -/
theorem responsesAreBounded : Obligations.ResponsesAreBounded := by
  unfold Obligations.ResponsesAreBounded
  intro s t f hp h hemit
  obtain ⟨-, ⟨hnone, -⟩ | ⟨chunk, rest, u, -, hpoll, rfl⟩⟩ := step_cases h
  · exact absurd hnone hp
  obtain ⟨o, hout, hbound⟩ := handlePoll_endsInBounds hpoll
  have ho : o = .emit f := by simpa using hout.symm.trans hemit
  have hlen : f.length ≤ maxResponse s.cfg.transport := hbound f ho
  exact ⟨fun ht => by rwa [ht] at hlen, fun ht => by rwa [ht] at hlen⟩

/-! ### Fragments (R94, R95, R157) -/

/-- On the serial transport the outcome of a frame and the tables it leaves look at configuration and tables alone, not
at what was recorded before. -/
theorem serialFrame_end_determined {c : Config} (ht : c.transport = .serial) (m : Memory) (f : List Byte) :
    ∃ o m', ∀ s : State, s.cfg = c → s.mem = m →
      ∃ u, serialFrame f s = .next u ∧ u.outcomes = s.outcomes ++ [o] ∧ u.mem = m' := by
  obtain hdrops | ⟨i, hruns⟩ := serialFrame_drops_or_runs c f
  · refine ⟨.drop, m, fun s hc hm => ?_⟩
    obtain ⟨w, x, l, hd⟩ := hdrops s hc
    exact ⟨_, hd, rfl, hm⟩
  · obtain ⟨m', fcr, p, -, hans⟩ := exec_answers c m i
    refine ⟨.emit (serialFrameOf (f.getD 0 0) (fcr :: p)), m', fun s hc hm => ?_⟩
    obtain ⟨w, x, l, hr, hsid⟩ := hruns s hc
    obtain ⟨l', hl⟩ := hans (s.withTransient w x l) hc hm
    have hframe : responseFrame (s.withTransient w x l) fcr p = serialFrameOf (f.getD 0 0) (fcr :: p) := by
      rw [← hsid]
      exact responseFrame_serial (s := s.withTransient w x l) (hc ▸ ht) fcr p
    exact ⟨_, hr.trans hl, by rw [← hframe]; rfl, rfl⟩

/-- u ended from s with outcome o, data bank m and buffer b, and what else survives a poll stands as it was. -/
structure EndedWith (s : State) (o : PollOutcome) (m : Memory) (b : List Byte) (u : State) : Prop where
  outcomes : u.outcomes = s.outcomes ++ [o]
  mem : u.mem = m
  rxbuf : u.rxbuf = b
  cfg : u.cfg = s.cfg
  polls : u.polls = s.polls
  fault : u.fault = s.fault

/-- A serial poll looks at RXBUF and the bytes it delivers only joined (R94). -/
theorem serialPoll_end_determined {c : Config} (ht : c.transport = .serial) (m : Memory) (buf : List Byte) :
    ∃ o m' b, ∀ (s : State) (chunk : List Byte), s.cfg = c → s.mem = m → s.rxbuf ++ chunk = buf →
      ∃ u, serialPoll chunk s = .next u ∧ EndedWith s o m' b u := by
  by_cases hlen : buf.length < 8
  · refine ⟨.retain, m, buf, fun s chunk _ hm hbuf => ?_⟩
    exact ⟨(s.setRxbuf buf).record .retain, by rw [serialPoll_eq, hbuf, if_pos hlen], rfl, hm, rfl, rfl, rfl, rfl⟩
  · obtain ⟨o, m', hframe⟩ := serialFrame_end_determined ht m buf
    refine ⟨o, m', [], fun s chunk hc hm hbuf => ?_⟩
    obtain ⟨u, hu, hout, hmem⟩ := hframe (s.setRxbuf []) hc hm
    obtain ⟨u', hu', hs⟩ := serialFrame_survives buf (s.setRxbuf [])
    cases hu.symm.trans hu'
    exact ⟨u, by rw [serialPoll_eq, hbuf, if_neg hlen, hu], hout, hmem, hs.rxbuf, hs.cfg, hs.polls, hs.fault⟩

theorem step_of_serial_poll {s : State} {chunk : List Byte} {rest : List (List Byte)} (hf : s.fault = false)
    (ht : s.cfg.transport = .serial) (hp : s.polls = chunk :: rest) :
    step s = endPoll (serialPoll chunk (s.setPolls rest)) := by
  rw [step_of_poll hf hp, handlePoll, State.setPolls_cfg, ht]
  rfl

/-- So does the step that handles it. -/
theorem step_serial_end_determined {c : Config} (ht : c.transport = .serial) (m : Memory) (buf : List Byte) :
    ∃ o m' b, ∀ (s : State) (chunk : List Byte) (rest : List (List Byte)), s.cfg = c → s.mem = m → s.fault = false →
      s.polls = chunk :: rest → s.rxbuf ++ chunk = buf →
        ∃ u, step s = .next u ∧ EndedWith (s.setPolls rest) o m' b u := by
  obtain ⟨o, m', b, hpoll⟩ := serialPoll_end_determined ht m buf
  refine ⟨o, m', b, fun s chunk rest hc hm hf hp hbuf => ?_⟩
  obtain ⟨u, hu, hend⟩ := hpoll (s.setPolls rest) chunk hc hm hbuf
  refine ⟨discardLatches u, by rw [step_of_serial_poll hf (hc ▸ ht) hp, hu]; rfl, ?_⟩
  exact ⟨hend.outcomes, hend.mem, hend.rxbuf, hend.cfg, hend.polls, hend.fault⟩

/-- A poll that leaves fewer than eight bytes keeps them in RXBUF (R94). -/
theorem step_retains {s : State} {chunk : List Byte} {rest : List (List Byte)} (hf : s.fault = false)
    (ht : s.cfg.transport = .serial) (hp : s.polls = chunk :: rest) (hlen : (s.rxbuf ++ chunk).length < 8) :
    step s = .next (discardLatches (((s.setPolls rest).setRxbuf (s.rxbuf ++ chunk)).record .retain)) := by
  rw [step_of_serial_poll hf ht hp, serialPoll_eq, State.setPolls_rxbuf, if_pos hlen]
  rfl

/-- Settles O52: the second poll and the one poll of both pieces see the same bytes joined. -/
theorem fragmentsJoinAcrossPolls : Obligations.FragmentsJoinAcrossPolls := by
  unfold Obligations.FragmentsJoinAcrossPolls
  intro s c1 c2 rest hf ht hp hlen
  obtain ⟨o, m, b, hends⟩ := step_serial_end_determined ht s.mem (s.rxbuf ++ c1 ++ c2)
  have hretain := step_retains hf ht hp hlen
  obtain ⟨u, hu, hend⟩ :=
    hends (discardLatches (((s.setPolls (c2 :: rest)).setRxbuf (s.rxbuf ++ c1)).record .retain)) c2 rest rfl rfl hf rfl
      rfl
  obtain ⟨v, hv, hend'⟩ :=
    hends { s with polls := (c1 ++ c2) :: rest } (c1 ++ c2) rest rfl rfl hf rfl (List.append_assoc ..).symm
  exact ⟨_, u, v, o, hretain, hu, hv, rfl, hend.outcomes, hend'.outcomes, hend.mem.trans hend'.mem.symm,
    hend.rxbuf.trans hend'.rxbuf.symm, hend.cfg.trans hend'.cfg.symm, hend.polls.trans hend'.polls.symm,
    hend.fault.trans hend'.fault.symm⟩

end Sys2Proof.Machine

/-!
The family 43_function_codes.md: what each function code answers, and what it writes.

Each of the three shapes (a read, a single write, a multiple write) is concluded once, for every table and function code:
`conclude_readTable_cells`, `conclude_writeSingle_cells` and `conclude_writeMultiple_cells` for a success, and two lemmas
each for its exceptions. `KeptOrRan` says what a poll can do to the data bank, and `handleFrame_end_determined` what the
end of a poll depends on.
-/
namespace Sys2Proof.Machine

/-! ### The end of a read (R122 to R125) -/

section
variable {k : TableKind} {addr qty : Word} {s : State}

theorem conclude_readTable_outside (hout : ¬ InRange s.cfg k addr.toNat qty.toNat) (pack : List k.Cell → List Byte)
    (n : Nat) (fc : Byte) (f : Fsm) :
    conclude fc (readTable k pack n addr qty (beginOperation f addr qty s)) =
      answered s s.mem { s.latches with addr := addr, qty := qty } (exceptionFc fc) [0x02] := by
  rw [readTable_outside (s := beginOperation f addr qty s) hout, conclude_exception]
  rfl

theorem conclude_readTable_oversized (hin : InRange s.cfg k addr.toNat qty.toNat) {n : Nat} (hn : 255 < n)
    (pack : List k.Cell → List Byte) (fc : Byte) (f : Fsm) :
    conclude fc (readTable k pack n addr qty (beginOperation f addr qty s)) =
      answered s s.mem { s.latches with addr := addr, qty := qty } (exceptionFc fc) [0x03] := by
  rw [readTable_oversized (s := beginOperation f addr qty s) hin hn, conclude_exception]
  rfl

/-- A successful read answers a byte count and the cells of its range, packed. -/
theorem conclude_readTable_cells (hwf : s.mem.wf s.cfg = true) (hin : InRange s.cfg k addr.toNat qty.toNat) {n : Nat}
    (hn : n ≤ 255) (pack : List k.Cell → List Byte) (fc : Byte) (f : Fsm) :
    ∃ vs : List k.Cell, vs.length = qty.toNat ∧
      (∀ j, j < qty.toNat → s.mem.cell k (addr.toNat - (s.cfg.shape k).base + j) = vs[j]?) ∧
      conclude fc (readTable k pack n addr qty (beginOperation f addr qty s)) =
        answered s s.mem { s.latches with addr := addr, qty := qty } fc
          (BitVec.ofNat 8 (pack vs).length :: pack vs) := by
  obtain ⟨hget, -⟩ := getReturnsTheCellsOfTheRange k addr.toNat qty.toNat s
  obtain ⟨vs, hread, hlen, hcells⟩ := hget hwf hin
  cases (memRead_of_inRange hin).symm.trans hread
  exact ⟨_, hlen, fun j hj => (hcells j hj).symm, conclude_readTable hin hn pack fc f⟩

end

/-- Cells read as bits stand in the packed data bit by bit, with zeros after them (R109). -/
theorem packBits_of_cells {cell : Nat → Option Bool} {vs : List Bool} {n : Nat} (hlen : vs.length = n)
    (hcells : ∀ j, j < n → cell j = vs[j]?) :
    (packBits vs).length = (n + 7) / 8 ∧ (∀ j, j < n → cell j = some (bitAt (packBits vs) j)) ∧
      ∀ j, n ≤ j → j < 8 * (packBits vs).length → bitAt (packBits vs) j = false := by
  subst hlen
  obtain ⟨hbytes, hbits, hpad⟩ := packBitsPlacesEveryBit vs
  exact ⟨hbytes, fun j hj => (hcells j hj).trans (hbits j hj), hpad⟩

/-- Cells read as words stand in the packed data two bytes each, high byte first (R111). -/
theorem packWords_of_cells {cell : Nat → Option Word} {vs : List Word} {n : Nat} (hlen : vs.length = n)
    (hcells : ∀ j, j < n → cell j = vs[j]?) :
    (packWords vs).length = 2 * n ∧
      ∀ j, j < n → cell j = some (wordOf ((packWords vs).getD (2 * j) 0) ((packWords vs).getD (2 * j + 1) 0)) := by
  subst hlen
  obtain ⟨hbytes, hwords⟩ := packWordsPlacesEveryByte vs
  exact ⟨hbytes, fun j hj => (hcells j hj).trans (hwords j hj)⟩

/-- The byte count of a bit read fits a byte exactly up to 2040 bits (R131). -/
theorem ceilDiv_eight_le_255_iff (n : Nat) : ceilDiv n 8 ≤ 255 ↔ n ≤ 2040 := by
  rw [ceilDiv]
  omega

/-- Settles O20: the three ends of a read, for table COIL and the bit packer. -/
theorem readCoilsResult : Obligations.ReadCoilsResult := by
  unfold Obligations.ReadCoilsResult
  intro addr qty s
  have hlimit := ceilDiv_eight_le_255_iff qty.toNat
  refine ⟨fun hwf hin hq => ?_, fun hout => ?_, fun hin hq => ?_⟩
  · obtain ⟨vs, hlen, hcells, hans⟩ := conclude_readTable_cells hwf hin (hlimit.mpr hq) packBits 0x01 .read
    obtain ⟨hbytes, hbits, hpad⟩ := packBits_of_cells hlen hcells
    exact ⟨packBits vs, by rw [← hbytes]; exact congrArg _ hans, hbytes, hbits, hpad⟩
  · exact congrArg _ (conclude_readTable_outside hout packBits _ 0x01 .read)
  · exact congrArg _ (conclude_readTable_oversized hin (by omega) packBits 0x01 .read)

/-- Settles O21: the same for table DISC. -/
theorem readDiscreteInputsResult : Obligations.ReadDiscreteInputsResult := by
  unfold Obligations.ReadDiscreteInputsResult
  intro addr qty s
  have hlimit := ceilDiv_eight_le_255_iff qty.toNat
  refine ⟨fun hwf hin hq => ?_, fun hout => ?_, fun hin hq => ?_⟩
  · obtain ⟨vs, hlen, hcells, hans⟩ := conclude_readTable_cells hwf hin (hlimit.mpr hq) packBits 0x02 .read
    obtain ⟨hbytes, hbits, hpad⟩ := packBits_of_cells hlen hcells
    exact ⟨packBits vs, by rw [← hbytes]; exact congrArg _ hans, hbytes, hbits, hpad⟩
  · exact congrArg _ (conclude_readTable_outside hout packBits _ 0x02 .read)
  · exact congrArg _ (conclude_readTable_oversized hin (by omega) packBits 0x02 .read)

/-- Settles O22: the three ends of a read, for table HOLD and the word packer. -/
theorem readHoldingRegistersResult : Obligations.ReadHoldingRegistersResult := by
  unfold Obligations.ReadHoldingRegistersResult
  intro addr qty s
  refine ⟨fun hwf hin hq => ?_, fun hout => ?_, fun hin hq => ?_⟩
  · obtain ⟨vs, hlen, hcells, hans⟩ :=
      conclude_readTable_cells hwf hin (n := 2 * qty.toNat) (by omega) packWords 0x03 .read
    obtain ⟨hbytes, hwords⟩ := packWords_of_cells hlen hcells
    exact ⟨packWords vs, by rw [← hbytes]; exact congrArg _ hans, hbytes, hwords⟩
  · exact congrArg _ (conclude_readTable_outside hout packWords _ 0x03 .read)
  · exact congrArg _ (conclude_readTable_oversized hin (n := 2 * qty.toNat) (by omega) packWords 0x03 .read)

/-- Settles O23: the same for table INPUT. -/
theorem readInputRegistersResult : Obligations.ReadInputRegistersResult := by
  unfold Obligations.ReadInputRegistersResult
  intro addr qty s
  refine ⟨fun hwf hin hq => ?_, fun hout => ?_, fun hin hq => ?_⟩
  · obtain ⟨vs, hlen, hcells, hans⟩ :=
      conclude_readTable_cells hwf hin (n := 2 * qty.toNat) (by omega) packWords 0x04 .read
    obtain ⟨hbytes, hwords⟩ := packWords_of_cells hlen hcells
    exact ⟨packWords vs, by rw [← hbytes]; exact congrArg _ hans, hbytes, hwords⟩
  · exact congrArg _ (conclude_readTable_outside hout packWords _ 0x04 .read)
  · exact congrArg _ (conclude_readTable_oversized hin (n := 2 * qty.toNat) (by omega) packWords 0x04 .read)

/-! ### The end of a single write (R126, R127) -/

section
variable {k : TableKind} {addr : Word} {s : State}

theorem conclude_writeSingle_outside (hout : ¬ InRange s.cfg k addr.toNat 1) (v : Option k.Cell) (qty : Word) (fc : Byte)
    (f : Fsm) :
    conclude fc (writeSingle k addr v (beginOperation f addr qty s)) =
      answered s s.mem { s.latches with addr := addr, qty := qty } (exceptionFc fc) [0x02] := by
  rw [writeSingle_outside (s := beginOperation f addr qty s) hout, conclude_exception]
  rfl

theorem conclude_writeSingle_illegal (hin : InRange s.cfg k addr.toNat 1) (qty : Word) (fc : Byte) (f : Fsm) :
    conclude fc (writeSingle k addr none (beginOperation f addr qty s)) =
      answered s s.mem { s.latches with addr := addr, qty := qty } (exceptionFc fc) [0x03] := by
  rw [writeSingle_illegal (s := beginOperation f addr qty s) hin, conclude_exception]
  rfl

/-- A successful single write sets the addressed cell, keeps every other and answers with its two fields. -/
theorem conclude_writeSingle_cells (hwf : s.mem.wf s.cfg = true) (hin : InRange s.cfg k addr.toNat 1) (v : k.Cell)
    (qty : Word) (fc : Byte) (f : Fsm) :
    ∃ m : Memory,
      conclude fc (writeSingle k addr (some v) (beginOperation f addr qty s)) =
          answered s m { s.latches with addr := addr, qty := qty } fc (toBE16 addr ++ toBE16 qty) ∧
        m.cell k (addr.toNat - (s.cfg.shape k).base) = some v ∧
        ∀ k' j, (k' = k → j ≠ addr.toNat - (s.cfg.shape k).base) → m.cell k' j = s.mem.cell k' j := by
  have hfit := cellIndex_add_le_length hwf hin
  refine ⟨_, conclude_writeSingle hin v qty fc f, ?_, fun k' j hout => ?_⟩
  · exact cell_setCells_writeCells_inside s.mem k _ 0 [v] Nat.zero_lt_one hfit
  · refine cell_setCells_writeCells_outside s.mem k _ [v] k' j fun hk => ?_
    have hne : j ≠ cellIndex s.cfg k addr.toNat := hout hk
    rw [List.length_singleton]
    omega

end

/-- The two legal coil values (30_encoding.md R66). -/
theorem coilValue_of_legal {v : Word} (h : v = 0xFF00 ∨ v = 0x0000) : coilValue v = some (decide (v = 0xFF00)) := by
  obtain rfl | rfl := h <;> rfl

theorem coilValue_of_illegal {v : Word} (h1 : v ≠ 0xFF00) (h0 : v ≠ 0x0000) : coilValue v = none := by
  rw [coilValue, if_neg h1, if_neg h0]

/-- Settles O24: the three ends of a single write, for table COIL and the two legal values. -/
theorem writeSingleCoilResult : Obligations.WriteSingleCoilResult := by
  unfold Obligations.WriteSingleCoilResult
  intro addr value s
  refine ⟨fun hwf hin hv => ?_, fun hout => ?_, fun hin h1 h0 => ?_⟩
  · obtain ⟨m, hans, hcell, hkeep⟩ :=
      conclude_writeSingle_cells hwf hin (decide (value = 0xFF00)) value 0x05 .writeSingle
    rw [← coilValue_of_legal hv] at hans
    exact ⟨m, congrArg _ hans, hcell, hkeep⟩
  · exact congrArg _ (conclude_writeSingle_outside hout (coilValue value) value 0x05 .writeSingle)
  · have hans := conclude_writeSingle_illegal hin value 0x05 .writeSingle
    rw [← coilValue_of_illegal h1 h0] at hans
    exact congrArg _ hans

/-- Settles O25: the same for table HOLD, where every value is legal. -/
theorem writeSingleRegisterResult : Obligations.WriteSingleRegisterResult := by
  unfold Obligations.WriteSingleRegisterResult
  intro addr value s
  refine ⟨fun hwf hin => ?_, fun hout => ?_⟩
  · obtain ⟨m, hans, hcell, hkeep⟩ := conclude_writeSingle_cells (k := .hold) hwf hin value value 0x06 .writeSingle
    exact ⟨m, congrArg _ hans, hcell, hkeep⟩
  · exact congrArg _ (conclude_writeSingle_outside (k := .hold) hout (some value) value 0x06 .writeSingle)

/-! ### The end of a multiple write (R128, R129) -/

section
variable {k : TableKind} {addr qty : Word} {s : State}

theorem conclude_writeMultiple_outside (hout : ¬ InRange s.cfg k addr.toNat qty.toNat)
    (unpack : List Byte → Nat → Option (List k.Cell)) (data : List Byte) (bc fc : Byte) (f : Fsm) :
    conclude fc (writeMultiple k unpack addr qty bc data (beginOperation f addr qty s)) =
      answered s s.mem { s.latches with addr := addr, qty := qty } (exceptionFc fc) [0x02] := by
  rw [writeMultiple_outside (s := beginOperation f addr qty s) hout, conclude_exception]
  rfl

theorem conclude_writeMultiple_short (hin : InRange s.cfg k addr.toNat qty.toNat)
    {unpack : List Byte → Nat → Option (List k.Cell)} {data : List Byte} (hd : unpack data qty.toNat = none)
    (bc fc : Byte) (f : Fsm) :
    conclude fc (writeMultiple k unpack addr qty bc data (beginOperation f addr qty s)) =
      answered s s.mem { s.latches with addr := addr, qty := qty, bc := bc, data := data } (exceptionFc fc) [0x03] := by
  rw [writeMultiple_short (s := beginOperation f addr qty s) hin hd, conclude_exception]
  rfl

/-- A successful multiple write puts the unpacked values in the cells of its range, keeps every other and
acknowledges. -/
theorem conclude_writeMultiple_cells (hwf : s.mem.wf s.cfg = true) (hin : InRange s.cfg k addr.toNat qty.toNat)
    {unpack : List Byte → Nat → Option (List k.Cell)} {data : List Byte} {vs : List k.Cell}
    (hd : unpack data qty.toNat = some vs) (hl : vs.length = qty.toNat) (bc fc : Byte) (f : Fsm) :
    ∃ m : Memory,
      conclude fc (writeMultiple k unpack addr qty bc data (beginOperation f addr qty s)) =
          answered s m { s.latches with addr := addr, qty := qty, bc := bc, data := data } fc
            (toBE16 addr ++ toBE16 qty) ∧
        (∀ j, j < qty.toNat → m.cell k (addr.toNat - (s.cfg.shape k).base + j) = vs[j]?) ∧
        ∀ k' j,
          (k' = k → j < addr.toNat - (s.cfg.shape k).base ∨ addr.toNat - (s.cfg.shape k).base + qty.toNat ≤ j) →
            m.cell k' j = s.mem.cell k' j := by
  have hfit := cellIndex_add_le_length hwf hin
  rw [← hl] at hfit
  refine ⟨_, conclude_writeMultiple hin hd hl bc fc f, fun j hj => ?_, fun k' j hout => ?_⟩
  · exact cell_setCells_writeCells_inside s.mem k _ j vs (hl ▸ hj) hfit
  · rw [← hl] at hout
    exact cell_setCells_writeCells_outside s.mem k _ vs k' j hout

end

/-- DATA in a payload that has a byte 4: what follows it, cut after BC bytes (30_encoding.md R58). -/
theorem writeDataOf_cons (a b c d n : Byte) (tail : List Byte) :
    writeDataOf (a :: b :: c :: d :: n :: tail) = tail.take n.toNat := by
  rw [writeDataOf, slice, Nat.add_sub_cancel_left]
  rfl

/-- Settles O26: the decoder's row, then the three ends of a multiple write, for table COIL and the bit unpacker. -/
theorem writeMultipleCoilsResult : Obligations.WriteMultipleCoilsResult := by
  unfold Obligations.WriteMultipleCoilsResult
  intro addr qty bc data s
  refine ⟨fun a b c d n tail => ⟨?_, decode_writeMultipleCoils (by simp)⟩, fun hwf hin hq => ?_, fun hout => ?_,
    fun hin hq => ?_⟩
  · rw [decode_writeMultipleCoils (by simp), writeDataOf_cons]
    rfl
  · have hd := unpackBits_of_le hq
    obtain ⟨m, hans, hcells, hkeep⟩ :=
      conclude_writeMultiple_cells (k := .coil) hwf hin hd (length_of_unpackBits hd) bc 0x0F .writeMultiple
    exact ⟨m, congrArg _ hans, fun j hj => (hcells j hj).trans (getElem?_unpackBits hd hj), hkeep⟩
  · exact congrArg _ (conclude_writeMultiple_outside hout unpackBits data bc 0x0F .writeMultiple)
  · have hd := (unpackBits_eq_none_iff data qty.toNat).mpr hq
    exact congrArg _ (conclude_writeMultiple_short (k := .coil) hin hd bc 0x0F .writeMultiple)

/-- Settles O27: the same for table HOLD and the word unpacker. -/
theorem writeMultipleRegistersResult : Obligations.WriteMultipleRegistersResult := by
  unfold Obligations.WriteMultipleRegistersResult
  intro addr qty bc data s
  refine ⟨fun a b c d n tail => ⟨?_, decode_writeMultipleRegisters (by simp)⟩, fun hwf hin hq => ?_, fun hout => ?_,
    fun hin hq => ?_⟩
  · rw [decode_writeMultipleRegisters (by simp), writeDataOf_cons]
    rfl
  · have hd := unpackWords_of_le hq
    obtain ⟨m, hans, hcells, hkeep⟩ :=
      conclude_writeMultiple_cells (k := .hold) hwf hin hd (length_of_unpackWords hd) bc 0x10 .writeMultiple
    exact ⟨m, congrArg _ hans, fun j hj => (hcells j hj).trans (getElem?_unpackWords hd hj), hkeep⟩
  · exact congrArg _ (conclude_writeMultiple_outside hout unpackWords data bc 0x10 .writeMultiple)
  · have hd := (unpackWords_eq_none_iff data qty.toNat).mpr hq
    exact congrArg _ (conclude_writeMultiple_short (k := .hold) hin hd bc 0x10 .writeMultiple)

/-! ### Writing registers and reading them back (R48, R162) -/

/-- Bytes that spell the first n words of the data are its first 2 n bytes. -/
theorem eq_take_of_words {d data : List Byte} {n : Nat} (hd : d.length = 2 * n) (hdata : 2 * n ≤ data.length)
    (hwords : ∀ j, j < n →
      wordOf (d.getD (2 * j) 0) (d.getD (2 * j + 1) 0) = wordOf (data.getD (2 * j) 0) (data.getD (2 * j + 1) 0)) :
    d = data.take (2 * n) := by
  refine List.ext_getElem (by rw [hd, List.length_take]; omega) fun i hi htake => ?_
  have hbyte : d.getD i 0 = data.getD i 0 := by
    obtain ⟨hhi, hlo⟩ := wordOf_inj (hwords (i / 2) (by omega))
    obtain h | h : i = 2 * (i / 2) ∨ i = 2 * (i / 2) + 1 := by omega
    · rwa [← h] at hhi
    · rwa [← h] at hlo
  rw [List.getElem_take, ← List.getD_eq_getElem _ 0 hi, hbyte, List.getD_eq_getElem _ 0 (by omega)]

/-- Settles O34: `writeMultipleRegistersResult` says which words the cells hold, `readHoldingRegistersResult` that the read
answers those words, and equal words have equal bytes. -/
theorem writtenRegistersReadBack : Obligations.WrittenRegistersReadBack := by
  unfold Obligations.WrittenRegistersReadBack
  intro addr qty bc data s t hwf hin hdata hq hwrite
  obtain ⟨-, hwritten, -⟩ := writeMultipleRegistersResult addr qty bc data s
  obtain ⟨m, hexec, hcells, -⟩ := hwritten hwf hin hdata
  cases hexec.symm.trans hwrite
  obtain ⟨t', ht', hs⟩ := exec_survives (.writeMultipleRegisters addr qty bc data) s
  cases hexec.symm.trans ht'
  obtain ⟨hread, -⟩ := readHoldingRegistersResult addr qty
    (answered s m { s.latches with addr := addr, qty := qty, bc := bc, data := data } 0x10 (toBE16 addr ++ toBE16 qty))
  obtain ⟨d, hexec', hlen, hwords⟩ := hread (hs.mem.wf hwf) hin hq
  have hd : d = data.take (2 * qty.toNat) := eq_take_of_words hlen hdata fun j hj =>
    Option.some.inj ((hwords j hj).symm.trans (hcells j hj))
  exact ⟨_, hexec', by rw [← hd]; rfl⟩

/-! ### What a poll can do to the data bank (R42, R141) -/

/-- From s to u the data bank was kept, or u is what an instruction with function code fc made of it. -/
def KeptOrRan (fc : Byte) (s u : State) : Prop :=
  u.mem = s.mem ∨
    ∃ i v, functionCode i = fc ∧ exec i v = .next u ∧ v.cfg = s.cfg ∧ v.mem = s.mem ∧ v.outcomes = s.outcomes

theorem dispatchPdu_keptOrRan {s u : State} (h : dispatchPdu s = .next u) : KeptOrRan s.latches.fc s u := by
  cases hdec : decode (s.latches.fc :: s.latches.pay) with
  | ok i =>
    obtain ⟨-, hfc, -⟩ := decodedInstructionMatchesItsPdu _ _ hdec
    rw [dispatchPdu_of_decode hdec] at h
    exact .inr ⟨i, s, (Option.some.inj hfc).symm, h, rfl, rfl, rfl⟩
  | error e =>
    cases (dispatchPdu_of_error hdec).symm.trans h
    exact .inl rfl

theorem serialFrame_keptOrRan {f : List Byte} {s u : State} (h : serialFrame f s = .next u) :
    KeptOrRan (f.getD 1 0) s u := by
  rw [serialFrame_eq] at h
  split at h
  · cases h
    exact .inl rfl
  · split at h
    · cases h
      exact .inl rfl
    · have hran := dispatchPdu_keptOrRan h
      rw [serialAccepted_eq] at hran
      exact hran

theorem socketFrame_keptOrRan {r : List Byte} {s u : State} (h : socketFrame r s = .next u) :
    KeptOrRan (r.getD 7 0) s u := by
  rw [socketFrame] at h
  split at h
  · cases h
    exact .inl rfl
  · split at h
    · cases h
      exact .inl rfl
    · exact dispatchPdu_keptOrRan h

theorem serialPoll_keptOrRan {r : List Byte} {s u : State} (h : serialPoll r s = .next u) : ∃ fc, KeptOrRan fc s u := by
  rw [serialPoll_eq] at h
  split at h
  · cases h
    exact ⟨0, .inl rfl⟩
  · exact ⟨_, serialFrame_keptOrRan (s := s.setRxbuf []) h⟩

theorem socketPoll_keptOrRan {r : List Byte} {s u : State} (h : socketPoll r s = .next u) : ∃ fc, KeptOrRan fc s u := by
  rw [socketPoll] at h
  split at h
  · cases h
    exact ⟨0, .inl rfl⟩
  · split at h
    · cases h
      exact ⟨0, .inl rfl⟩
    · exact ⟨_, socketFrame_keptOrRan h⟩

theorem handlePoll_keptOrRan {r : List Byte} {s u : State} (h : handlePoll r s = .next u) : ∃ fc, KeptOrRan fc s u := by
  rw [handlePoll] at h
  split at h
  · exact serialPoll_keptOrRan h
  · exact socketPoll_keptOrRan h

/-- A request that gets no exception has one of the eight codes, none of which has bit 7 set (R62). -/
theorem functionCode_bit_seven_of_success {c : Config} {i : Instr} (h : exceptionOf c i = none) :
    (functionCode i).getLsbD 7 = false := by
  cases i with
  | unsupported fc => cases h
  | _ => simp [functionCode]

/-- The function code byte of a response stands where that of a request does. -/
theorem frameCode_responseFrame (s : State) (fcr : Byte) (p : List Byte) :
    frameCode s.cfg.transport (responseFrame s fcr p) = fcr := by
  cases ht : s.cfg.transport with
  | serial => rw [responseFrame_serial ht]; rfl
  | socket => rw [responseFrame_socket ht]; rfl

/-- An instruction keeps the data bank, or emits one frame, whose function code has bit 7 clear. -/
theorem exec_keeps_mem_or_emits_success {i : Instr} {s u : State} (h : exec i s = .next u) :
    u.mem = s.mem ∨
      ∃ f, u.outcomes = s.outcomes ++ [.emit f] ∧ (frameCode s.cfg.transport f).getLsbD 7 = false := by
  obtain ⟨m, fcr, p, hresp, hans⟩ := exec_answers s.cfg s.mem i
  obtain ⟨l, hl⟩ := hans s rfl rfl
  cases hl.symm.trans h
  rw [RespondsByPriority.eq_def] at hresp
  split at hresp
  · obtain ⟨-, -, hm⟩ := hresp
    exact .inl hm
  · next hnone =>
    obtain ⟨hfc, -⟩ := hresp
    refine .inr ⟨responseFrame s fcr p, rfl, ?_⟩
    rw [frameCode_responseFrame, hfc, functionCode_bit_seven_of_success hnone]

/-- Settles O43: configuration and FAULT survive every poll, and only a success writes the data bank. -/
theorem dropsAndExceptionsWriteNothing : Obligations.DropsAndExceptionsWriteNothing := by
  unfold Obligations.DropsAndExceptionsWriteNothing
  intro s t o hp h hout hend
  obtain ⟨hfault, ⟨hnone, -⟩ | ⟨chunk, rest, u, -, hpoll, rfl⟩⟩ := step_cases h
  · exact absurd hnone hp
  obtain ⟨t', p, b, ht', hs, -, -⟩ := step_survives hfault hp
  cases ht'.symm.trans h
  refine ⟨?_, hs.cfg, hs.fault⟩
  obtain ⟨fc, hkept | ⟨i, v, -, hexec, hcfg, hmem, hout'⟩⟩ := handlePoll_keptOrRan hpoll
  · exact hkept
  obtain hkept | ⟨f, hemit, hbit⟩ := exec_keeps_mem_or_emits_success hexec
  · exact hkept.trans hmem
  rw [hout'] at hemit
  have ho : o = .emit f := by simpa using hout.symm.trans hemit
  subst ho
  obtain hdrop | hretain | ⟨f', hf', hset⟩ := hend
  · cases hdrop
  · cases hretain
  · cases hf'
    rw [hcfg] at hbit
    cases hbit.symm.trans hset

/-! ### A read request delivered twice (R132) -/

theorem conclude_mem (fc : Byte) (h : Handled) : (conclude fc h).mem = h.state.mem := by
  cases h with
  | reply r s => rw [conclude_reply]; rfl
  | exception c s => rw [conclude_exception]; rfl
  | contractFault info s => rfl

/-- The handlers of function codes 1 to 4 write no cell. -/
theorem handle_read_keeps_mem {i : Instr} (hfc : functionCode i ∈ ([0x01, 0x02, 0x03, 0x04] : List Byte)) (s : State) :
    (handle i s).state.mem = s.mem := by
  cases i with
  | readCoils addr qty => exact (congrArg State.mem (state_readTable ..)).trans rfl
  | readDiscreteInputs addr qty => exact (congrArg State.mem (state_readTable ..)).trans rfl
  | readHoldingRegisters addr qty => exact (congrArg State.mem (state_readTable ..)).trans rfl
  | readInputRegisters addr qty => exact (congrArg State.mem (state_readTable ..)).trans rfl
  | unsupported fc => rfl
  | _ => simp [functionCode] at hfc

theorem KeptOrRan.mem_of_read {fc : Byte} {s u : State} (h : KeptOrRan fc s u)
    (hfc : fc ∈ ([0x01, 0x02, 0x03, 0x04] : List Byte)) : u.mem = s.mem := by
  obtain hkept | ⟨i, v, rfl, hexec, -, hmem, -⟩ := h
  · exact hkept
  cases (exec_eq_conclude i v).symm.trans hexec
  rw [conclude_mem, handle_read_keeps_mem hfc, hmem]

/-- On a socket too the outcome of a frame and the tables it leaves look at configuration and tables alone. -/
theorem socketFrame_end_determined {c : Config} (ht : c.transport = .socket) (m : Memory) (r : List Byte) :
    ∃ o m', ∀ s : State, s.cfg = c → s.mem = m →
      ∃ u, socketFrame r s = .next u ∧ u.outcomes = s.outcomes ++ [o] ∧ u.mem = m' := by
  by_cases hlen : (be16 r 4).toNat < 2 ∨ r.length < 6 + (be16 r 4).toNat
  · exact ⟨.drop, m, fun s _ hm => ⟨_, if_pos hlen, rfl, hm⟩⟩
  by_cases hsid : r.getD 6 0 = c.serverId
  swap
  · refine ⟨.drop, m, fun s hc hm => ?_⟩
    subst hc
    exact ⟨_, (if_neg hlen).trans (if_pos hsid), rfl, hm⟩
  have hdispatch : ∀ s : State, s.cfg = c → socketFrame r s = dispatchPdu (socketAccepted r s) := by
    rintro s rfl
    rw [socketFrame, if_neg hlen, if_neg (not_not.mpr hsid)]
  cases hdec : decode (r.getD 7 0 :: slice r 8 (6 + (be16 r 4).toNat)) with
  | error e =>
    exact ⟨.drop, m, fun s hc hm => ⟨_, (hdispatch s hc).trans (dispatchPdu_of_error hdec), rfl, hm⟩⟩
  | ok i =>
    obtain ⟨m', fcr, p, -, hans⟩ := exec_answers c m i
    refine ⟨.emit (socketFrameOf (be16 r 0) (r.getD 6 0) (fcr :: p)), m', fun s hc hm => ?_⟩
    obtain ⟨l, hl⟩ := hans (socketAccepted r s) hc hm
    have hframe : responseFrame (socketAccepted r s) fcr p = socketFrameOf (be16 r 0) (r.getD 6 0) (fcr :: p) :=
      responseFrame_socket (s := socketAccepted r s) (hc ▸ ht) fcr p
    exact ⟨_, (hdispatch s hc).trans ((dispatchPdu_of_decode hdec).trans hl), by rw [← hframe]; rfl, rfl⟩

/-- The frame f handled on transport t (42_frame_codec.md R96, R100). -/
def handleFrame (t : Transport) (f : List Byte) (s : State) : Host.Outcome State Fault Refusal :=
  match t with
  | .serial => serialFrame f s
  | .socket => socketFrame f s

/-- With an empty RXBUF a poll that delivers a whole frame handles that frame (R95, R99). -/
theorem step_of_whole_frame {s : State} {f : List Byte} {rest : List (List Byte)} (hfault : s.fault = false)
    (hrx : s.rxbuf = []) (hp : s.polls = f :: rest) (hlen : 8 ≤ f.length)
    (hmax : s.cfg.transport = .socket → f.length ≤ 260) :
    step s = endPoll (handleFrame s.cfg.transport f (s.setPolls rest)) := by
  cases ht : s.cfg.transport with
  | serial =>
    have hkeep : (s.setPolls rest).setRxbuf [] = s.setPolls rest := by rw [← hrx]; rfl
    rw [step_of_serial_poll hfault ht hp, serialPoll_eq, State.setPolls_rxbuf, hrx, List.nil_append,
      if_neg (not_lt.mpr hlen), hkeep]
    rfl
  | socket =>
    have hrecv : received .socket f = f := List.take_of_length_le (hmax ht)
    have hleft : pollsLeft .socket f rest = rest := if_pos (hmax ht)
    rw [step_of_poll hfault hp, ht, hrecv, hleft, handlePoll, State.setPolls_cfg, ht]
    exact congrArg endPoll (by rw [socketPoll, if_neg (by omega), if_neg (by omega)]; rfl)

theorem handleFrame_keptOrRan {t : Transport} {f : List Byte} {s u : State} (h : handleFrame t f s = .next u) :
    KeptOrRan (frameCode t f) s u := by
  cases t with
  | serial => exact serialFrame_keptOrRan h
  | socket => exact socketFrame_keptOrRan h

theorem handleFrame_survives (t : Transport) (f : List Byte) (s : State) :
    ∃ u, handleFrame t f s = .next u ∧ Survives s u := by
  cases t with
  | serial => exact serialFrame_survives f s
  | socket => exact socketFrame_survives f s

theorem handleFrame_end_determined (c : Config) (m : Memory) (f : List Byte) :
    ∃ o m', ∀ s : State, s.cfg = c → s.mem = m →
      ∃ u, handleFrame c.transport f s = .next u ∧ u.outcomes = s.outcomes ++ [o] ∧ u.mem = m' := by
  cases ht : c.transport with
  | serial => exact serialFrame_end_determined ht m f
  | socket => exact socketFrame_end_determined ht m f

/-- Settles O51: the first poll leaves configuration and tables as they were, so the second ends in the same outcome. -/
theorem repeatedReadRequestAnswersAlike : Obligations.RepeatedReadRequestAnswersAlike := by
  unfold Obligations.RepeatedReadRequestAnswersAlike
  intro s f rest hfault hrx hp hlen hmax hcode
  obtain ⟨o, m, hend⟩ := handleFrame_end_determined s.cfg s.mem f
  obtain ⟨t, ht, hout, hm⟩ := hend (s.setPolls (f :: rest)) rfl rfl
  obtain ⟨t', ht', hs⟩ := handleFrame_survives s.cfg.transport f (s.setPolls (f :: rest))
  cases ht.symm.trans ht'
  have hmem : t.mem = s.mem := (handleFrame_keptOrRan ht).mem_of_read hcode
  have hcfg : t.cfg = s.cfg := hs.cfg
  obtain ⟨u, hu, hout', hm'⟩ := hend ((discardLatches t).setPolls rest) hcfg hmem
  have hstep : step s = .next (discardLatches t) := by
    rw [step_of_whole_frame hfault hrx hp hlen hmax, ht]
    rfl
  have hstep' : step (discardLatches t) = .next (discardLatches u) := by
    rw [step_of_whole_frame (s := discardLatches t) (hs.fault.trans hfault) (hs.rxbuf.trans hrx) hs.polls hlen
      (by rw [discardLatches_cfg, hcfg]; exact hmax), discardLatches_cfg, hcfg, hu]
    rfl
  exact ⟨_, _, o, hstep, hstep', hout, hout', hm'.trans (hm.symm.trans hmem)⟩

/-! ### The way of FSM through an instruction (R118) -/

/-- A response is built with FSM in Respond. -/
theorem fsm_respond (fcr : Byte) (p : List Byte) (s : State) : (respond fcr p s).fsm = .respond := by
  cases ht : s.cfg.transport with
  | serial => simp [respond, buildTx, ht, crcCompute_eq]
  | socket => simp [respond, buildTx, ht]

/-- The class a code outside the eight runs in. -/
theorem fsmClass_of_unsupported {fc : Byte} (h : isSupported fc = false) : fsmClass fc = .unsupported := by
  have hnot : ¬ isSupported fc = true := by simp [h]
  rw [isSupported_iff] at hnot
  rw [fsmClass, if_neg (by tauto), if_neg (by tauto), if_neg (by tauto)]

/-- Every handler leaves FSM in the class of its function code. -/
theorem fsm_state_handle {i : Instr} (hwf : i.wellFormed = true) (s : State) :
    (handle i s).state.fsm = fsmClass (functionCode i) := by
  cases i with
  | readCoils addr qty => exact congrArg State.fsm (state_readTable ..)
  | readDiscreteInputs addr qty => exact congrArg State.fsm (state_readTable ..)
  | readHoldingRegisters addr qty => exact congrArg State.fsm (state_readTable ..)
  | readInputRegisters addr qty => exact congrArg State.fsm (state_readTable ..)
  | writeSingleCoil addr value =>
    obtain ⟨m, hm⟩ := state_writeSingle .coil addr (coilValue value) (beginOperation .writeSingle addr value s)
    exact congrArg State.fsm hm
  | writeSingleRegister addr value =>
    obtain ⟨m, hm⟩ := state_writeSingle .hold addr (some value) (beginOperation .writeSingle addr value s)
    exact congrArg State.fsm hm
  | writeMultipleCoils addr qty bc data =>
    obtain ⟨m, l, hm⟩ := state_writeMultiple .coil unpackBits addr qty bc data
      (beginOperation .writeMultiple addr qty s) fun _ _ _ => length_of_unpackBits
    exact congrArg State.fsm hm
  | writeMultipleRegisters addr qty bc data =>
    obtain ⟨m, l, hm⟩ := state_writeMultiple .hold unpackWords addr qty bc data
      (beginOperation .writeMultiple addr qty s) fun _ _ _ => length_of_unpackWords
    exact congrArg State.fsm hm
  | unsupported fc => exact (fsmClass_of_unsupported (fc := fc) (by simpa [Instr.wellFormed] using hwf)).symm

/-- Every instruction ends with FSM in Idle. -/
theorem fsm_conclude_handle (i : Instr) (s : State) : (conclude (functionCode i) (handle i s)).fsm = .idle := by
  obtain ⟨m, fcr, p, -, hans⟩ := answersByPriority_handle s.cfg s.mem i
  obtain ⟨l, hl⟩ := hans s rfl rfl
  rw [hl]
  rfl

/-- Settles O53: the classes code by code, the handler's class and the return to Idle by the lemmas above. -/
theorem fsmClassOfEveryFunctionCode : Obligations.FsmClassOfEveryFunctionCode := by
  unfold Obligations.FsmClassOfEveryFunctionCode
  refine ⟨fun fc => ?_, fun i s hwf => ⟨fsm_state_handle hwf s, _, exec_eq_conclude i s, rfl, fsm_conclude_handle i s⟩,
    fun fc s => ⟨fun r => ⟨fsm_respond .., rfl⟩, fun c => ⟨fsm_respond .., rfl⟩⟩⟩
  simp [fsmClass]

/-! ### The exceptions (R130, R134) -/

/-- Settles O28: the decoder's default row, and the exception its handler ends in. -/
theorem unsupportedCodesAnswerIllegalFunction : Obligations.UnsupportedCodesAnswerIllegalFunction := by
  unfold Obligations.UnsupportedCodesAnswerIllegalFunction
  intro fc pay s hfc
  have hunsupported : isSupported fc = false := by simpa [isSupported, supportedCodes] using hfc
  exact ⟨decode_of_unsupported hunsupported pay, congrArg _ (conclude_exception fc .illegalFunction _)⟩

/-- A response keeps the data bank and the configuration. -/
theorem mem_cfg_respond (fcr : Byte) (p : List Byte) (s : State) :
    (respond fcr p s).mem = s.mem ∧ (respond fcr p s).cfg = s.cfg := by
  rw [← returnToIdle_mem, ← returnToIdle_cfg, returnToIdle_respond]
  exact ⟨rfl, rfl⟩

/-- Settles O32: an exception is a response, so it emits `responseFrame`, here written out on each transport. -/
theorem exceptionResponseForms : Obligations.ExceptionResponseForms := by
  unfold Obligations.ExceptionResponseForms
  intro fc code s
  have hout := outcomes_respond (exceptionFc fc) [exceptionByte code] s
  obtain ⟨hmem, hcfg⟩ := mem_cfg_respond (exceptionFc fc) [exceptionByte code] s
  refine ⟨fun ht => ?_, fun ht => ?_, hmem, hcfg, rfl⟩
  · rw [takeException, hout, responseFrame_serial ht]
    rfl
  · rw [takeException, hout, responseFrame_socket ht, socketFrameOf, List.length_cons, List.length_singleton,
      show toBE16 (BitVec.ofNat 16 (1 + 1 + 1)) = [0x00, 0x03] by decide]
    rfl

end Sys2Proof.Machine

/-!
The family 60_exceptions.md: the order in which a poll is checked, and which end each check gives it.

An accepted frame whose PDU decodes ends as `EndsByPriority` says, on either transport; the two theorems on the order of
checks add the checks that come before it, one branch of the frame's handling each.
-/
namespace Sys2Proof.Machine

/-! ### No poll waiting (R150, R152) -/

/-- Settles O37. -/
theorem blockHoldsItsStateBetweenPolls : Obligations.BlockHoldsItsStateBetweenPolls := fun _ => step_of_no_poll

/-! ### The end of a dropped frame (R139, orders 3 and 4; R140, orders 2 to 4 and 6) -/

/-- The handling o of a frame from s is a drop: before it, transient state alone was written. -/
def Drops (s : State) (o : Host.Outcome State Fault Refusal) : Prop :=
  ∃ w x l, o = .next (dropFrame (s.withTransient w x l))

/-- A drop keeps every cell and adds itself to the outcomes. -/
theorem Drops.mem_outcomes {s u : State} {o : Host.Outcome State Fault Refusal} (h : Drops s o) (ho : o = .next u) :
    u.mem = s.mem ∧ u.outcomes = s.outcomes ++ [.drop] := by
  obtain ⟨w, x, l, h⟩ := h
  cases h.symm.trans ho
  exact ⟨rfl, rfl⟩

/-! ### The end of an accepted frame (R139, orders 5 to 8) -/

/-- From s to u the request i with function code fc was answered, in the envelope `frame`, as the order of checks gives
it: an exception with no cell changed, or a success with the request's own function code. -/
def EndsByPriority (frame : List Byte → List Byte) (fc : Byte) (i : Instr) (s u : State) : Prop :=
  match exceptionOf s.cfg i with
  | some code => u.mem = s.mem ∧ u.outcomes = s.outcomes ++ [.emit (frame [fc ||| 0x80, code])]
  | none => ∃ p : List Byte, u.outcomes = s.outcomes ++ [.emit (frame (fc :: p))]

theorem exec_endsByPriority {i : Instr} {s u : State} {frame : List Byte → List Byte} (h : exec i s = .next u)
    (hframe : ∀ fcr p, responseFrame s fcr p = frame (fcr :: p)) : EndsByPriority frame (functionCode i) i s u := by
  obtain ⟨m, fcr, p, hresp, hans⟩ := exec_answers s.cfg s.mem i
  obtain ⟨l, hl⟩ := hans s rfl rfl
  cases hl.symm.trans h
  have hout : (answered s m l fcr p).outcomes = s.outcomes ++ [.emit (frame (fcr :: p))] := by
    rw [← hframe]
    rfl
  unfold RespondsByPriority at hresp
  unfold EndsByPriority
  cases he : exceptionOf s.cfg i with
  | some code =>
    simp only [he] at hresp ⊢
    obtain ⟨rfl, rfl, rfl⟩ := hresp
    exact ⟨rfl, hout⟩
  | none =>
    simp only [he] at hresp ⊢
    obtain ⟨rfl, -⟩ := hresp
    exact ⟨p, hout⟩

/-- A dispatched PDU that decodes is answered with its own function code. -/
theorem dispatchPdu_endsByPriority {i : Instr} {s u : State} {frame : List Byte → List Byte}
    (hdec : decode (s.latches.fc :: s.latches.pay) = .ok i) (h : dispatchPdu s = .next u)
    (hframe : ∀ fcr p, responseFrame s fcr p = frame (fcr :: p)) : EndsByPriority frame s.latches.fc i s u := by
  obtain ⟨-, hfc, -⟩ := decodedInstructionMatchesItsPdu _ _ hdec
  have hfc : s.latches.fc = functionCode i := Option.some.inj hfc
  rw [dispatchPdu_of_decode hdec] at h
  rw [hfc]
  exact exec_endsByPriority h hframe

/-! ### The serial poll (R139) -/

section
variable {f : List Byte} {s : State}

theorem serialFrame_drops_of_crc
    (h : crc16 (f.take (f.length - 2)) ≠ wordOf (f.getD (f.length - 1) 0) (f.getD (f.length - 2) 0)) :
    Drops s (serialFrame f s) :=
  ⟨_, s.fsm, s.latches, by rw [serialFrame_eq, if_pos h]; rfl⟩

theorem serialFrame_drops_of_serverId
    (hcrc : crc16 (f.take (f.length - 2)) = wordOf (f.getD (f.length - 1) 0) (f.getD (f.length - 2) 0))
    (h : f.getD 0 0 ≠ s.cfg.serverId) : Drops s (serialFrame f s) :=
  ⟨_, s.fsm, _, by rw [serialFrame_eq, if_neg (not_not.mpr hcrc), if_pos h]; rfl⟩

end

/-- An accepted serial frame holds at least four payload bytes, so its PDU always decodes. -/
theorem decode_of_whole_serialFrame {f : List Byte} (h : 8 ≤ f.length) :
    ∃ i, decode (f.getD 1 0 :: slice f 2 (f.length - 2)) = .ok i :=
  decode_of_long _ (by rw [length_slice]; omega)

theorem serialFrame_endsByPriority {f : List Byte} {i : Instr} {s u : State} (ht : s.cfg.transport = .serial)
    (hcrc : crc16 (f.take (f.length - 2)) = wordOf (f.getD (f.length - 1) 0) (f.getD (f.length - 2) 0))
    (hsid : f.getD 0 0 = s.cfg.serverId) (hdec : decode (f.getD 1 0 :: slice f 2 (f.length - 2)) = .ok i)
    (h : serialFrame f s = .next u) : EndsByPriority (serialFrameOf s.cfg.serverId) (f.getD 1 0) i s u := by
  rw [serialFrame_eq, if_neg (not_not.mpr hcrc), if_neg (not_not.mpr hsid)] at h
  have hend := dispatchPdu_endsByPriority (frame := serialFrameOf s.cfg.serverId)
    (by rw [serialAccepted_eq]; exact hdec) h fun fcr p => by
      rw [responseFrame_serial (by simpa using ht), serialAccepted_sid, hsid]
  rw [serialAccepted_eq] at hend
  exact hend

/-- Settles O39: a short buffer is retained; else each order has its lemma above. -/
theorem serialPollFollowsTheOrderOfChecks : Obligations.SerialPollFollowsTheOrderOfChecks := by
  unfold Obligations.SerialPollFollowsTheOrderOfChecks
  rintro s chunk rest f ht hp rfl
  refine ⟨step_of_fault, fun hfault => ?_⟩
  by_cases hlen : (s.rxbuf ++ chunk).length < 8
  · refine ⟨_, step_retains hfault ht hp hlen, rfl, fun _ => ⟨rfl, rfl, rfl⟩, ?_, ?_, ?_, ?_⟩ <;>
      exact fun h => absurd hlen (not_lt.mpr h)
  obtain ⟨u, hu, hs⟩ := serialFrame_survives (s.rxbuf ++ chunk) ((s.setPolls rest).setRxbuf [])
  have hstep : step s = .next (discardLatches u) := by
    rw [step_of_serial_poll hfault ht hp, serialPoll_eq, State.setPolls_rxbuf, if_neg hlen, hu]
    rfl
  have hdrop
      (h : Drops ((s.setPolls rest).setRxbuf []) (serialFrame (s.rxbuf ++ chunk) ((s.setPolls rest).setRxbuf []))) :
      u.mem = s.mem ∧ u.outcomes = s.outcomes ++ [.drop] := h.mem_outcomes hu
  refine ⟨_, hstep, hs.polls, fun h => absurd h hlen, fun _ => hs.rxbuf, fun _ hcrc => ?_, fun _ hcrc hsid => ?_,
    fun h8 hcrc hsid => ?_⟩
  · exact hdrop (serialFrame_drops_of_crc hcrc)
  · exact hdrop (serialFrame_drops_of_serverId hcrc hsid)
  · obtain ⟨i, hdec⟩ := decode_of_whole_serialFrame h8
    have hend := serialFrame_endsByPriority (s := (s.setPolls rest).setRxbuf []) ht hcrc hsid hdec hu
    exact ⟨i, hdec, hend⟩

/-! ### The socket poll (R140) -/

/-- All a socket poll can do: drop what is too short, or handle the frame. -/
theorem socketPoll_eq (r : List Byte) (s : State) :
    socketPoll r s = if r.length < 8 then .next (dropFrame s) else socketFrame r s := by
  rw [socketPoll]
  split
  · rw [if_pos (by omega)]
  · rfl

/-- A receive that fits SOCK_RX_MAX is handled whole (R99). -/
theorem step_of_socket_poll {s : State} {r : List Byte} {rest : List (List Byte)} (hf : s.fault = false)
    (ht : s.cfg.transport = .socket) (hp : s.polls = r :: rest) (hmax : r.length ≤ 260) :
    step s = endPoll (socketPoll r (s.setPolls rest)) := by
  have hrecv : received .socket r = r := List.take_of_length_le hmax
  have hleft : pollsLeft .socket r rest = rest := if_pos hmax
  rw [step_of_poll hf hp, ht, hrecv, hleft, handlePoll, State.setPolls_cfg, ht]

/-- The payload of an accepted socket frame is the LENF bytes after the header without server id and function code. -/
theorem length_socket_payload {r : List Byte} (hall : 6 + (be16 r 4).toNat ≤ r.length) :
    (slice r 8 (6 + (be16 r 4).toNat)).length = (be16 r 4).toNat - 2 := by
  rw [length_slice]
  omega

/-- The PDU of an accepted socket frame decodes when its code is unsupported or its payload holds the two fields. -/
theorem decode_of_whole_socketFrame {r : List Byte} (hall : 6 + (be16 r 4).toNat ≤ r.length)
    (h : isSupported (r.getD 7 0) = false ∨ 6 ≤ (be16 r 4).toNat) :
    ∃ i, decode (r.getD 7 0 :: slice r 8 (6 + (be16 r 4).toNat)) = .ok i := by
  obtain hunsupported | hlenf := h
  · exact ⟨_, decode_of_unsupported hunsupported _⟩
  · exact decode_of_long _ (by rw [length_socket_payload hall]; omega)

section
variable {r : List Byte} {s : State}

theorem socketFrame_drops_of_length (h : (be16 r 4).toNat < 2 ∨ r.length < 6 + (be16 r 4).toNat) :
    Drops s (socketFrame r s) :=
  ⟨s.crc, s.fsm, _, by rw [socketFrame, if_pos h]; rfl⟩

variable (hlenf : 2 ≤ (be16 r 4).toNat) (hall : 6 + (be16 r 4).toNat ≤ r.length)
include hlenf hall

theorem socketFrame_drops_of_serverId (h : r.getD 6 0 ≠ s.cfg.serverId) : Drops s (socketFrame r s) :=
  ⟨s.crc, s.fsm, _, by rw [socketFrame, if_neg (by omega), if_pos h]; rfl⟩

variable (hsid : r.getD 6 0 = s.cfg.serverId)
include hsid

/-- A socket frame that passes the length and server id checks is dispatched. -/
theorem socketFrame_accepted : socketFrame r s = dispatchPdu (socketAccepted r s) := by
  rw [socketFrame, if_neg (by omega), if_neg (not_not.mpr hsid)]

/-- R115: a supported code with fewer than four payload bytes. -/
theorem socketFrame_drops_of_payload (hsup : isSupported (r.getD 7 0) = true) (hshort : (be16 r 4).toNat - 2 < 4) :
    Drops s (socketFrame r s) := by
  have hdec : decode (r.getD 7 0 :: slice r 8 (6 + (be16 r 4).toNat)) = .error .shortPayload :=
    decode_of_short hsup (by rw [length_socket_payload hall]; exact hshort)
  exact ⟨s.crc, .idle, _, (socketFrame_accepted hlenf hall hsid).trans (dispatchPdu_of_error hdec)⟩

theorem socketFrame_endsByPriority {i : Instr} {u : State} (ht : s.cfg.transport = .socket)
    (hdec : decode (r.getD 7 0 :: slice r 8 (6 + (be16 r 4).toNat)) = .ok i) (h : socketFrame r s = .next u) :
    EndsByPriority (socketFrameOf (be16 r 0) s.cfg.serverId) (r.getD 7 0) i s u := by
  rw [socketFrame_accepted hlenf hall hsid] at h
  refine dispatchPdu_endsByPriority (s := socketAccepted r s) hdec h fun fcr p => ?_
  rw [← hsid]
  exact responseFrame_socket (s := socketAccepted r s) ht fcr p

end

/-- Settles O40: a short receive is dropped; else each order has its lemma above. -/
theorem socketPollFollowsTheOrderOfChecks : Obligations.SocketPollFollowsTheOrderOfChecks := by
  unfold Obligations.SocketPollFollowsTheOrderOfChecks
  intro s r rest ht hp hmax
  refine ⟨step_of_fault, fun hfault => ?_⟩
  obtain ⟨u, hu, hs⟩ := socketPoll_survives r (s.setPolls rest)
  have hstep : step s = .next (discardLatches u) := by
    rw [step_of_socket_poll hfault ht hp hmax, hu]
    rfl
  rw [socketPoll_eq] at hu
  have hframe (h8 : 8 ≤ r.length) : socketFrame r (s.setPolls rest) = .next u := by rwa [if_neg (not_lt.mpr h8)] at hu
  have hdrop (h8 : 8 ≤ r.length) (h : Drops (s.setPolls rest) (socketFrame r (s.setPolls rest))) :
      u.mem = s.mem ∧ u.outcomes = s.outcomes ++ [.drop] := h.mem_outcomes (hframe h8)
  refine ⟨_, hstep, hs.polls, hs.rxbuf, fun h => ?_, fun h8 hbad => ?_, fun h8 hlenf hall hsid => ?_,
    fun h8 hlenf hall hsid hsup hshort => ?_, fun h8 hlenf hall hsid hwhole => ?_⟩
  · rw [if_pos h] at hu
    cases hu
    exact ⟨rfl, rfl⟩
  · exact hdrop h8 (socketFrame_drops_of_length hbad)
  · exact hdrop h8 (socketFrame_drops_of_serverId hlenf hall hsid)
  · exact hdrop h8 (socketFrame_drops_of_payload hlenf hall hsid hsup hshort)
  · obtain ⟨i, hdec⟩ := decode_of_whole_socketFrame hall hwhole
    have hend := socketFrame_endsByPriority (s := s.setPolls rest) hlenf hall hsid ht hdec (hframe h8)
    exact ⟨i, hdec, hend⟩

end Sys2Proof.Machine
